-- ==== Sys2Proof/Word.lean ====
section
/-! DEFINITION. The word types of the minitotp engine (spec/00_scope.md R5, R6): `u8`, `u32` and `u64`.
Every value is unsigned; `+` and `-` on them are the `+32`, `+64` and `-64` of R7. -/

namespace Sys2Proof

/-- `u8`: one byte of a buffer (R8). -/
abbrev Byte := BitVec 8

/-- `u32`: a host register and a SHA-1 word (R5 `WORD`, R22). -/
abbrev Word := BitVec 32

/-- `u64`: COUNTER and TIME (R5). -/
abbrev DWord := BitVec 64

end Sys2Proof
end

