-- ==== Sys2Proof/Machine/Bytes.lean ====
section
/-! DEFINITION. Byte sequences, byte orders and the rotate (spec/00_scope.md R7, R8; spec/20_memory.md R68). -/

namespace Sys2Proof.Machine

/-- `rotl32(x, n)` for `0 < n < 32` (R7). -/
def rotl32 (x : Word) (n : Nat) : Word := (x <<< n) ||| (x >>> (32 - n))

/-- `S[i..i+n)` (R8). -/
def slice (S : List Byte) (i n : Nat) : List Byte := (S.drop i).take n

/-- `be32` of the first four bytes (R8). Its uses give it four bytes; a byte that is not there counts as 0
(log entry 17). -/
def be32 (S : List Byte) : Word := S.getD 0 0 ++ S.getD 1 0 ++ S.getD 2 0 ++ S.getD 3 0

/-- `bytes_be32` (R8). -/
def bytesBe32 (w : Word) : List Byte :=
  [w.extractLsb' 24 8, w.extractLsb' 16 8, w.extractLsb' 8 8, w.extractLsb' 0 8]

/-- `bytes_be64` (R8). -/
def bytesBe64 (v : DWord) : List Byte :=
  bytesBe32 (v.extractLsb' 32 32) ++ bytesBe32 (v.extractLsb' 0 32)

/-- The four byte lanes of a 32-bit port value, the lane of the lowest offset first: lane `j` is bits
`8j+7:8j` (R68). -/
def lanes (w : Word) : List Byte :=
  [w.extractLsb' 0 8, w.extractLsb' 8 8, w.extractLsb' 16 8, w.extractLsb' 24 8]

/-- The 32-bit port value of four byte lanes, the lane of the lowest offset first (R62, R68). -/
def ofLanes (S : List Byte) : Word := S.getD 3 0 ++ S.getD 2 0 ++ S.getD 1 0 ++ S.getD 0 0

end Sys2Proof.Machine
end

