-- ==== Sys2Proof/Syntax.lean ====
section
/-! DEFINITION. The commands of the minitotp engine: one constructor per row of spec/opcode_table.json
(spec/30_encoding.md R92). No command has an operand field (R95), so no constructor has an argument. -/

namespace Sys2Proof

/-- A command. -/
inductive Instr where
  /-- SHA1_HASH, R134. -/
  | sha1Hash
  /-- HMAC_SHA1, R175. -/
  | hmacSha1
  /-- HOTP_GEN, R202. -/
  | hotpGen
  /-- HOTP_TRUNC, R203. -/
  | hotpTrunc
  /-- TOTP_COUNTER, R204. -/
  | totpCounter
  /-- TOTP_GEN, R205. -/
  | totpGen
  /-- TOTP_VERIFY, R206. -/
  | totpVerify
  /-- B32_ENCODE, R250. -/
  | b32Encode
  /-- B32_DECODE, R251. -/
  | b32Decode
  /-- B32_DECODE_TEXT, R252. -/
  | b32DecodeText
  deriving DecidableEq, Repr

end Sys2Proof
end

