-- ==== Sys2Proof/Decode.lean ====
section
/-! DEFINITION. The command decoder, total on every word and on every byte sequence, and the encoder
(spec/30_encoding.md R90 to R96). -/

namespace Sys2Proof

/-- Why a word or a byte sequence is no command. -/
inductive DecodeReject where
  /-- Fewer than the four bytes of a command word (R96: a decoder always takes one 32-bit word). -/
  | truncated
  /-- Bits 31:8 are not all zero (R91). -/
  | reservedBits
  /-- Bits 31:8 are zero and OP is 0x00 or 0x0B..0xFF (R93). -/
  | unassignedOp
  deriving DecidableEq, Repr

/-- Field OP, bits 7:0 (R90). -/
def opField (v : Word) : Byte := v.extractLsb' 0 8

/-- Field RSVD, bits 31:8 (R90). -/
def rsvdField (v : Word) : BitVec 24 := v.extractLsb' 8 24

/-- The opcode map read from OP to command (R92). -/
def instrOfOp (op : Byte) : Option Instr :=
  match op.toNat with
  | 0x01 => some .sha1Hash
  | 0x02 => some .hmacSha1
  | 0x03 => some .hotpGen
  | 0x04 => some .hotpTrunc
  | 0x05 => some .totpCounter
  | 0x06 => some .totpGen
  | 0x07 => some .totpVerify
  | 0x08 => some .b32Encode
  | 0x09 => some .b32Decode
  | 0x0A => some .b32DecodeText
  | _ => none

/-- `decode(v)` of R90. -/
def decode (v : Word) : Except DecodeReject Instr :=
  if rsvdField v ≠ 0 then .error .reservedBits
  else
    match instrOfOp (opField v) with
    | some i => .ok i
    | none => .error .unassignedOp

/-- Decoding from bytes laid out as the host port moves a word, the lane of bits 7:0 first (R68), with the
bytes after the word (log entry 15). -/
def decodeBytes (bs : List Byte) : Except DecodeReject (Instr × List Byte) :=
  if bs.length < 4 then .error .truncated
  else
    match decode (Machine.ofLanes bs) with
    | .ok i => .ok (i, bs.drop 4)
    | .error e => .error e

/-- The opcode map read from command to OP (R92). -/
def opcode : Instr → Byte
  | .sha1Hash => 0x01
  | .hmacSha1 => 0x02
  | .hotpGen => 0x03
  | .hotpTrunc => 0x04
  | .totpCounter => 0x05
  | .totpGen => 0x06
  | .totpVerify => 0x07
  | .b32Encode => 0x08
  | .b32Decode => 0x09
  | .b32DecodeText => 0x0A

/-- The command word: RSVD zero, OP in bits 7:0 (R90). -/
def encode (i : Instr) : Word := (0 : BitVec 24) ++ opcode i

/-- The command word's bytes, the lane of bits 7:0 first. -/
def encodeBytes (i : Instr) : List Byte := Machine.lanes (encode i)

/-- What the decoder reads from a table row's word of `nbits` bits, every bit above them 0. -/
def decodeTableWord (nbits w : Nat) : Option Instr :=
  match decodeBytes (Machine.lanes (BitVec.ofNat 32 (w % 2 ^ nbits))) with
  | .ok (i, _) => some i
  | .error _ => none

end Sys2Proof
end

