-- ==== Sys2Proof/Machine/Port.lean ====
section
/-! DEFINITION. The types of the host port: registers by name, accesses, the events the outside world can
cause, what the port answers, and the regions of the window (spec/10_state.md R22; spec/20_memory.md R60 to
R67; spec/70_reset_and_hazards.md R320, R321; spec/60_exceptions.md R304). -/

namespace Sys2Proof.Machine

/-- The host registers by name (R22). -/
inductive HostReg where
  | cmd | status | cfg | tstep | keylen | inlen | outlen | erridx | code | trunc | dtoff
  | counterLo | counterHi | timeLo | timeHi
  | digest0 | digest1 | digest2 | digest3 | digest4
  deriving DecidableEq, Repr

/-- What a window offset names (R61). -/
inductive Region where
  | reg (r : HostReg)
  | key
  | inBuf
  | outBuf
  | unassigned
  deriving DecidableEq, Repr

/-- A host-port access at a platform address: MemRead or MemWrite of `bytes` bytes (R62, R63). A write carries
its value in the low `8 * bytes` bits of `data` (log entry 12). -/
inductive Access where
  | read (addr bytes : Nat)
  | write (addr bytes : Nat) (data : Word)
  deriving DecidableEq, Repr

/-- What the outside world does to the engine, one event a step (log entries 4, 6, 7). -/
inductive PortEvent where
  /-- A host access (R62, R63). -/
  | access (a : Access)
  /-- The reset input is asserted between accesses (R320). -/
  | resetAssert
  /-- The reset input is released (R320). -/
  | resetRelease
  /-- The host writes `word` to CMD and reset is asserted while that command runs (R321). -/
  | cmdAbandoned (word : Word)
  /-- Power is lost (R304). -/
  | powerLoss
  deriving DecidableEq, Repr

/-- What the host port answered last. -/
inductive Reply where
  /-- Nothing yet. -/
  | none
  /-- A write completed. -/
  | written
  /-- The value of an 8-bit read. -/
  | byte (b : Byte)
  /-- The value of a 32-bit read. -/
  | word (w : Word)
  deriving DecidableEq, Repr, Inhabited

/-- Whether the engine serves its port (R320, R304). -/
inductive Phase where
  /-- Powered, reset released: idle between commands (R304). -/
  | running
  /-- Reset is asserted (R320). -/
  | inReset
  /-- Power was lost and no reset has followed (R304; 93_implementation_defined.md U11). -/
  | unpowered
  deriving DecidableEq, Repr

end Sys2Proof.Machine
end

