-- ==== Sys2Proof/Config.lean ====
section
/-! DEFINITION. What is fixed for the machine: the constants of spec/00_scope.md R5 and the window's layout
(spec/20_memory.md R61), and the free values. The two OPEN parameters of R5 are no constants: they are a field
of State (log entry 1). -/

namespace Sys2Proof.Config

/-- `BLOCK`, bytes (R5). -/
abbrev blockBytes : Nat := 64

/-- `DIGEST_BYTES` (R5). -/
abbrev digestBytes : Nat := 20

/-- `KEY_BYTES` (R5). -/
abbrev keyBytes : Nat := 64

/-- The size of the window (R60). -/
abbrev windowBytes : Nat := 0x4000

/-- The end of the register offsets; below it only 32-bit accesses are legal (R64). -/
abbrev regEnd : Nat := 0x100

/-- The window offset of `KEY[0]` (R61). -/
abbrev keyBase : Nat := 0x0100

/-- The window offset of `IN[0]` (R61). -/
abbrev inBase : Nat := 0x1000

/-- The window offset of `OUT[0]` (R61). -/
abbrev outBase : Nat := 0x2000

/-- The `n`-th fresh draw of an unspecified byte (R79). Nothing constrains it (log entry 2). -/
opaque freeByte : Nat → Byte

/-- The `n`-th undefined answer of the port: an access during reset, a CMD write that reset abandons (R320,
R321). Nothing constrains it (log entry 6). -/
opaque freeReply : Nat → Machine.Reply

end Sys2Proof.Config
end

