-- ==== Sys2Proof/Machine/State.lean ====
section
/-! DEFINITION. The state of the minitotp engine (spec/10_state.md R22 to R36, R45), the reasons a step stops,
and the state after reset. -/

namespace Sys2Proof.Machine

/-- The OPEN parameters of spec/00_scope.md R5, which a model takes as an argument (92_eei_decisions.md D8). -/
structure Params where
  /-- `IN_BUF_BYTES`. -/
  inBufBytes : Nat
  /-- `ENGINE_BASE`. -/
  engineBase : Nat
  deriving DecidableEq, Repr

/-- Five words: the chaining words H0..H4 and the working words A..E (R39), and DIGEST0..4 (R35). -/
structure HashWords where
  h0 : Word
  h1 : Word
  h2 : Word
  h3 : Word
  h4 : Word
  deriving DecidableEq, Repr

/-- The bytes of the buffers by window offset, offsets strictly rising. An offset of a buffer that is not
listed holds an unspecified byte (R79). -/
abbrev Memory := List Host.Cell

/-- The canonical form of a memory. An unlisted byte has no value, so no entry can equal it. -/
abbrev Memory.wf (m : Memory) : Prop := m.Pairwise (fun c d => c.1 < d.1)

/-- The machine's state. -/
structure State where
  /-- STATUS, R24. -/
  status : Word
  /-- CFG, R25. -/
  cfg : Word
  /-- TSTEP, R26. -/
  tstep : Word
  /-- KEYLEN, R27. -/
  keylen : Word
  /-- INLEN, R28. -/
  inlen : Word
  /-- OUTLEN, R29. -/
  outlen : Word
  /-- ERRIDX, R30. -/
  erridx : Word
  /-- CODE, R33. -/
  code : Word
  /-- TRUNC, R34. -/
  trunc : Word
  /-- DTOFF, R34. -/
  dtoff : Word
  /-- COUNTER = COUNTER_HI:COUNTER_LO, R31. -/
  counter : DWord
  /-- TIME = TIME_HI:TIME_LO, R32. -/
  time : DWord
  /-- DIGEST0..DIGEST4, R35. -/
  digest : HashWords
  /-- The KEY, IN and OUT buffers, R36. -/
  mem : Memory
  /-- Running, in reset, or without power (R320, R304). -/
  phase : Phase
  /-- The model's own: the OPEN parameters (log entry 1). -/
  params : Params
  /-- The model's own: how many free values have been drawn (log entry 2). -/
  draws : Nat
  /-- The model's own: the port events still to be served, oldest first (log entry 4). -/
  port : List PortEvent
  /-- The model's own: the port's last answer (log entry 4). -/
  reply : Reply
  deriving DecidableEq, Repr

/-- What stops the machine. -/
inductive Fault where
  /-- A host access that R64 or R65 forbids: "it is a fault of the host agent that issued it" (R298), raised by
  the port. Safe: the engine goes on unchanged where the model stops. -/
  | busError
  /-- Any event but a reset, or none, after power was lost (R304; U11 "stuck"), raised by the port. Safe. -/
  | noPower
  deriving DecidableEq, Repr

/-- What the model gives no meaning to. -/
inductive Refusal where
  /-- A command without a meaning yet, raised by `exec`. Safe. No command is left so. -/
  | notModelled (mnemonic : String)
  /-- An access outside the 16 KiB window, which is "not the engine's: the platform decides" (R66), raised by
  the port. Safe: the engine is not touched by it. -/
  | outsideWindow
  deriving DecidableEq, Repr

/-- The codes of R290 but NONE. -/
inductive ErrorName where
  | illegalCmd | badDigits | badTstep | keyTooLong | badInlen | invalidChar | decodeFailure
  deriving DecidableEq, Repr

/-- The register checks a command can make before it computes (R291). -/
inductive RegCheck where
  /-- DIGITS = 0 or > 10. -/
  | digits
  /-- TSTEP = 0. -/
  | tstep
  /-- KEYLEN > 64. -/
  | keyLong
  /-- INLEN > IN_BUF_BYTES. -/
  | inLong
  /-- INLEN differs from 20. -/
  | inNot20
  deriving DecidableEq, Repr

/-- The result of a dynamic truncation (R192 to R194). -/
structure Truncation where
  offset : Word
  p : Word
  code : Word
  deriving DecidableEq, Repr

/-- The result of HOTP (R196). -/
structure HotpResult where
  hs : List Byte
  tr : Truncation
  deriving DecidableEq, Repr

/-- The Base32 bit accumulator: buffered bits and their count (R41). -/
structure BitAcc where
  acc : BitVec 12
  n : Nat
  deriving DecidableEq, Repr

/-- One row of the UTF-8 table: the sequence's length and the range of its second byte (R249). -/
structure Utf8Lead where
  len : Nat
  lo : Nat
  hi : Nat
  deriving DecidableEq, Repr

/-- The state after reset (R45, R320), reset released. `params`, `draws`, `port` and `reply` are the model's own
and have the values of log entries 1, 2 and 4. -/
def State.reset : State where
  status := 0x00000000
  cfg := 0x00000106
  tstep := 0x0000001E
  keylen := 0
  inlen := 0
  outlen := 0
  erridx := 0
  code := 0
  trunc := 0
  dtoff := 0
  counter := 0
  time := 0
  digest := ⟨0, 0, 0, 0, 0⟩
  mem := []
  phase := .running
  params := ⟨256, 0⟩
  draws := 0
  port := []
  reply := .none

end Sys2Proof.Machine
end

