-- ==== Sys2Proof/Machine/AddressMap.lean ====
section
/-! DEFINITION. The address map: sizes, register offsets, access rights and the regions of the window
(spec/00_scope.md R5; spec/10_state.md R22; spec/20_memory.md R60, R61, R64, R65). -/

namespace Sys2Proof.Machine

/-- `OUT_BUF_BYTES = 8 * ceil(IN_BUF_BYTES / 5)` (R5). -/
def Params.outBufBytes (p : Params) : Nat := 8 * ((p.inBufBytes + 4) / 5)

/-- The window offset of a platform address, if the address is in the window (R60; log entry 11). -/
def Params.windowOffset (p : Params) (addr : Nat) : Option Nat :=
  if p.engineBase ≤ addr ∧ addr < p.engineBase + Config.windowBytes then some (addr - p.engineBase) else none

/-- A register's offset (R22). -/
def HostReg.offset : HostReg → Nat
  | .cmd => 0x000
  | .status => 0x004
  | .cfg => 0x008
  | .tstep => 0x00C
  | .keylen => 0x010
  | .inlen => 0x014
  | .outlen => 0x018
  | .erridx => 0x01C
  | .code => 0x020
  | .trunc => 0x024
  | .dtoff => 0x028
  | .counterLo => 0x030
  | .counterHi => 0x034
  | .timeLo => 0x038
  | .timeHi => 0x03C
  | .digest0 => 0x040
  | .digest1 => 0x044
  | .digest2 => 0x048
  | .digest3 => 0x04C
  | .digest4 => 0x050

/-- The register at an offset; 0x02C and 0x054..0x0FF are unassigned (R22, R61). -/
def HostReg.ofOffset : Nat → Option HostReg
  | 0x000 => some .cmd
  | 0x004 => some .status
  | 0x008 => some .cfg
  | 0x00C => some .tstep
  | 0x010 => some .keylen
  | 0x014 => some .inlen
  | 0x018 => some .outlen
  | 0x01C => some .erridx
  | 0x020 => some .code
  | 0x024 => some .trunc
  | 0x028 => some .dtoff
  | 0x030 => some .counterLo
  | 0x034 => some .counterHi
  | 0x038 => some .timeLo
  | 0x03C => some .timeHi
  | 0x040 => some .digest0
  | 0x044 => some .digest1
  | 0x048 => some .digest2
  | 0x04C => some .digest3
  | 0x050 => some .digest4
  | _ => none

/-- The non-reserved bits of a register (R24 to R35, R37). CMD holds no state (R23). -/
def HostReg.fields : HostReg → Word
  | .cmd => 0x00000000
  | .status => 0x0000FF03
  | .cfg => 0x0000FF0F
  | .keylen => 0x000000FF
  | .trunc => 0x7FFFFFFF
  | .dtoff => 0x0000000F
  | .tstep | .inlen | .outlen | .erridx | .code => 0xFFFFFFFF
  | .counterLo | .counterHi | .timeLo | .timeHi => 0xFFFFFFFF
  | .digest0 | .digest1 | .digest2 | .digest3 | .digest4 => 0xFFFFFFFF

/-- The region an offset lies in (R61). -/
def Params.regionOf (p : Params) (off : Nat) : Region :=
  if off < Config.regEnd then
    match HostReg.ofOffset off with
    | some r => .reg r
    | none => .unassigned
  else if off < Config.keyBase + Config.keyBytes then .key
  else if off < Config.inBase then .unassigned
  else if off < Config.inBase + p.inBufBytes then .inBuf
  else if off < Config.outBase then .unassigned
  else if off < Config.outBase + p.outBufBytes then .outBuf
  else .unassigned

/-- Whether R64 (widths) and R65 (alignment) allow an access of `n` bytes at an offset. -/
def legalAccess (off n : Nat) : Bool :=
  (n == 4 && off % 4 == 0) || (n == 1 && Config.regEnd ≤ off)

end Sys2Proof.Machine
end

