-- ==== Sys2Proof/Machine/Flags.lean ====
section
/-! DEFINITION. STATUS: its fields and the word an epilogue writes (spec/10_state.md R24, R38;
spec/60_exceptions.md R290, R293, R294). -/

namespace Sys2Proof.Machine

/-- The error codes (R290). -/
def ErrorName.errCode : ErrorName → Byte
  | .illegalCmd => 0x01
  | .badDigits => 0x02
  | .badTstep => 0x03
  | .keyTooLong => 0x04
  | .badInlen => 0x05
  | .invalidChar => 0x06
  | .decodeFailure => 0x07

/-- The STATUS word with the given fields, reserved bits 0 (R24). -/
def statusWord (errCode : Byte) (isMatch err : Bool) : Word :=
  (0 : BitVec 16) ++ errCode ++ (0 : BitVec 6) ++ BitVec.ofBool isMatch ++ BitVec.ofBool err

/-- STATUS.ERR (R24). -/
def State.errFlag (s : State) : Bool := s.status.getLsbD 0

/-- STATUS.MATCH (R24). -/
def State.matchFlag (s : State) : Bool := s.status.getLsbD 1

/-- STATUS.ERRCODE (R24). -/
def State.errCode (s : State) : Byte := s.status.extractLsb' 8 8

end Sys2Proof.Machine
end

