-- ==== Sys2Proof/Machine/Ops.lean ====
section
/-! DEFINITION. The named operations over the buffers and the registers: reading and writing bytes, drawing an
unspecified byte, reading and writing a host register, and the two epilogues that end every command
(spec/20_memory.md R62, R63, R79; spec/10_state.md R22, R37; spec/60_exceptions.md R293, R294). The error
epilogue is what this hardware has for taking an exception; there is no return from one (R295, R296). -/

namespace Sys2Proof.Machine

/-- The byte at an offset, if it has a value (R79). -/
def Memory.read? : Memory → Nat → Option Byte
  | [], _ => none
  | (k, v) :: m, a => if a = k then some v else Memory.read? m a

/-- Give the byte at an offset a value. -/
def Memory.write : Memory → Nat → Byte → Memory
  | [], a, b => [(a, b)]
  | (k, v) :: m, a, b =>
    if a < k then (a, b) :: (k, v) :: m
    else if a = k then (a, b) :: m
    else (k, v) :: Memory.write m a b

/-- Give the bytes from an offset on values. -/
def Memory.writeSpan : Memory → Nat → List Byte → Memory
  | m, _, [] => m
  | m, a, b :: bs => Memory.writeSpan (m.write a b) (a + 1) bs

/-- Make the bytes at `lo..hi-1` unspecified (R79, R293, R294). -/
def Memory.forget (m : Memory) (lo hi : Nat) : Memory := m.filter fun c => c.1 < lo || hi ≤ c.1

/-- Read the byte at an offset of a buffer: its value, or a fresh draw (R79; log entry 2). -/
def State.readByte (s : State) (a : Nat) : Byte × State :=
  match s.mem.read? a with
  | some b => (b, s)
  | none => (Config.freeByte s.draws, { s with draws := s.draws + 1 })

/-- Read `n` bytes from an offset of a buffer on, in rising order (log entry 3). -/
def State.readSpan (s : State) (a : Nat) : Nat → List Byte × State
  | 0 => ([], s)
  | n + 1 =>
    let b := s.readByte a
    let bs := State.readSpan b.2 (a + 1) n
    (b.1 :: bs.1, bs.2)

/-- The bits a register holds. -/
def State.rawReg (s : State) : HostReg → Word
  | .cmd => 0
  | .status => s.status
  | .cfg => s.cfg
  | .tstep => s.tstep
  | .keylen => s.keylen
  | .inlen => s.inlen
  | .outlen => s.outlen
  | .erridx => s.erridx
  | .code => s.code
  | .trunc => s.trunc
  | .dtoff => s.dtoff
  | .counterLo => s.counter.extractLsb' 0 32
  | .counterHi => s.counter.extractLsb' 32 32
  | .timeLo => s.time.extractLsb' 0 32
  | .timeHi => s.time.extractLsb' 32 32
  | .digest0 => s.digest.h0
  | .digest1 => s.digest.h1
  | .digest2 => s.digest.h2
  | .digest3 => s.digest.h3
  | .digest4 => s.digest.h4

/-- What a host read of a register returns: reserved bits read 0 (R37, R62); CMD reads 0 (R23). -/
def State.readReg (s : State) (r : HostReg) : Word := s.rawReg r &&& r.fields

/-- What a register holds after `v` is written into its non-reserved fields; a reserved field keeps its value
(R37, R63). -/
def State.mergeReg (s : State) (r : HostReg) (v : Word) : Word :=
  (s.rawReg r &&& ~~~r.fields) ||| (v &&& r.fields)

/-- A host write to a register other than CMD: an RW register stores, an RO register ignores (R22, R63, R67).
Each half of COUNTER and of TIME is written alone (R64, R330). -/
def State.writeReg (s : State) (r : HostReg) (v : Word) : State :=
  match r with
  | .cfg => { s with cfg := s.mergeReg .cfg v }
  | .tstep => { s with tstep := s.mergeReg .tstep v }
  | .keylen => { s with keylen := s.mergeReg .keylen v }
  | .inlen => { s with inlen := s.mergeReg .inlen v }
  | .counterLo => { s with counter := s.counter.extractLsb' 32 32 ++ s.mergeReg .counterLo v }
  | .counterHi => { s with counter := s.mergeReg .counterHi v ++ s.counter.extractLsb' 0 32 }
  | .timeLo => { s with time := s.time.extractLsb' 32 32 ++ s.mergeReg .timeLo v }
  | .timeHi => { s with time := s.mergeReg .timeHi v ++ s.time.extractLsb' 0 32 }
  | .cmd | .status | .outlen | .erridx | .code | .trunc | .dtoff => s
  | .digest0 | .digest1 | .digest2 | .digest3 | .digest4 => s

/-- The end of the OUT buffer. -/
def State.outEnd (s : State) : Nat := Config.outBase + s.params.outBufBytes

/-- `raise <ErrorName>(idx)` and the error epilogue it runs (R10, R293). -/
def State.raiseError (s : State) (e : ErrorName) (idx : Nat) : State :=
  { s with
    status := statusWord e.errCode false true
    erridx := BitVec.ofNat 32 idx
    outlen := 0
    mem := s.mem.forget Config.outBase s.outEnd }

/-- The success epilogue with match result `m` (R294). -/
def State.succeed (s : State) (m : Bool) : State :=
  { s with
    status := statusWord 0x00 m false
    erridx := 0
    mem := s.mem.forget (Config.outBase + s.outlen.toNat) s.outEnd }

/-- `OUT[0..len(bs)) <- bs; OUTLEN <- len(bs)`. -/
def State.putOut (s : State) (bs : List Byte) : State :=
  { s with mem := s.mem.writeSpan Config.outBase bs, outlen := BitVec.ofNat 32 bs.length }

/-- `for i = 0..4: DIGESTi <- be32(Dg[4i..4i+4))` (R70). -/
def State.putDigest (s : State) (dg : List Byte) : State :=
  { s with
    digest := ⟨be32 (slice dg 0 4), be32 (slice dg 4 4), be32 (slice dg 8 4), be32 (slice dg 12 4),
      be32 (slice dg 16 4)⟩ }

/-- `DTOFF <- offset; TRUNC <- P; CODE <- code` (R202, R203). -/
def State.putTruncation (s : State) (t : Truncation) : State :=
  { s with dtoff := t.offset, trunc := t.p, code := t.code }

/-- `COUNTER <- c`. -/
def State.putCounter (s : State) (c : DWord) : State := { s with counter := c }

/-- The register state of R320: every host register at its reset value and every buffer byte unspecified. What is
the model's own is kept (log entry 6). -/
def State.resetRegs (s : State) (ph : Phase) : State :=
  { State.reset with
    phase := ph
    params := s.params
    draws := s.draws
    port := s.port
    reply := s.reply }

end Sys2Proof.Machine
end

