-- ==== Sys2Proof/Machine/Operands.lean ====
section
/-! DEFINITION. Operand assembly (spec/30_encoding.md R95), the register checks a command makes before it
computes (spec/60_exceptions.md R290 to R292), and the shape of a command that makes them. -/

namespace Sys2Proof.Machine

/-- `codeDigits`: CFG[3:0] (R25, R95). -/
def State.cfgDigits (s : State) : Nat := (s.cfg.extractLsb' 0 4).toNat

/-- `window`: CFG[15:8] (R25, R95). -/
def State.cfgWindow (s : State) : Nat := (s.cfg.extractLsb' 8 8).toNat

/-- The key length: KEYLEN[7:0] (R27, R95). -/
def State.keyLen (s : State) : Nat := (s.keylen.extractLsb' 0 8).toNat

/-- The input length: INLEN (R28, R95). -/
def State.inLen (s : State) : Nat := s.inlen.toNat

/-- Read the key KEY[0..KEYLEN) (R95). -/
def State.readKey (s : State) : List Byte × State := s.readSpan Config.keyBase s.keyLen

/-- Read the input IN[0..INLEN) (R95). -/
def State.readIn (s : State) : List Byte × State := s.readSpan Config.inBase s.inLen

/-- Whether a register check fails (R290). -/
def RegCheck.fails (c : RegCheck) (s : State) : Bool :=
  match c with
  | .digits => s.cfgDigits == 0 || 10 < s.cfgDigits
  | .tstep => s.tstep == 0
  | .keyLong => Config.keyBytes < s.keyLen
  | .inLong => s.params.inBufBytes < s.inLen
  | .inNot20 => s.inLen != 20

/-- The error a failed check raises (R290). -/
def RegCheck.error : RegCheck → ErrorName
  | .digits => .badDigits
  | .tstep => .badTstep
  | .keyLong => .keyTooLong
  | .inLong => .badInlen
  | .inNot20 => .badInlen

/-- A command: the first of its checks that fails raises its error with index 0, and no other part of the command
runs (R10, R292); otherwise its body runs. -/
def runChecked (checks : List RegCheck) (s : State) (body : State → State) : Host.Outcome State Fault Refusal :=
  match checks.find? fun c => c.fails s with
  | some c => .next (s.raiseError c.error 0)
  | none => .next (body s)

end Sys2Proof.Machine
end

