-- ==== Sys2Proof/Machine/Base32.lean ====
section
/-! DEFINITION. The Base32 Codec, text validity, and the three Base32 commands (spec/43_base32.md). -/

namespace Sys2Proof.Machine

/-- The padding character '=' (R240). -/
def padChar : Byte := 0x3D

/-- The symbol of a value: the alphabet's `v`-th character (R241). -/
def sym (v : BitVec 5) : Byte :=
  if v.toNat ≤ 25 then 0x41 + v.setWidth 8 else 0x32 + (v.setWidth 8 - 26)

/-- The value of a symbol in either case, if it has one (R241). -/
def rev (c : Byte) : Option (BitVec 5) :=
  if 0x41 ≤ c ∧ c ≤ 0x5A then some ((c - 0x41).setWidth 5)
  else if 0x61 ≤ c ∧ c ≤ 0x7A then some ((c - 0x61).setWidth 5)
  else if 0x32 ≤ c ∧ c ≤ 0x37 then some ((c - 0x32 + 26).setWidth 5)
  else none

/-- `acc = (acc << 8) or b; n = n + 8` (R242). Twelve bits hold every buffered bit (R41; log entry 20). -/
def BitAcc.pushByte (a : BitAcc) (b : Byte) : BitAcc := ⟨(a.acc <<< 8) ||| b.setWidth 12, a.n + 8⟩

/-- The loop `while n >= 5` of R242, at most `fuel` times round. -/
def drainSymbols : Nat → BitAcc → List Byte × BitAcc
  | 0, a => ([], a)
  | fuel + 1, a =>
    if 5 ≤ a.n then
      let n := a.n - 5
      let r := drainSymbols fuel ⟨a.acc &&& BitVec.ofNat 12 (2 ^ n - 1), n⟩
      (sym ((a.acc >>> n).setWidth 5) :: r.1, r.2)
    else ([], a)

/-- The symbols of a byte sequence from an accumulator on, the tail right-padded with zero bits (R242). -/
def encodeSymbols : BitAcc → List Byte → List Byte
  | a, [] => if 0 < a.n then [sym ((a.acc <<< (5 - a.n)).setWidth 5)] else []
  | a, b :: bs =>
    let r := drainSymbols (a.pushByte b).n (a.pushByte b)
    r.1 ++ encodeSymbols r.2 bs

/-- Pad with '=' to the smallest multiple of 8 that is at least the length (R242, R244). -/
def padSymbols (out : List Byte) : List Byte := out ++ List.replicate ((8 - out.length % 8) % 8) padChar

/-- `B32Encode(S)` (R242). -/
def b32Encode (S : List Byte) : List Byte := padSymbols (encodeSymbols ⟨0, 0⟩ S)

/-- `acc = ((acc << 5) or v) and 0xFFF; n = n + 5` (R246). -/
def BitAcc.pushSymbol (a : BitAcc) (v : BitVec 5) : BitAcc := ⟨(a.acc <<< 5) ||| v.setWidth 12, a.n + 5⟩

/-- `B32Decode(S)` from index `i` and an accumulator on: the bytes, or the index of the symbol that raises
INVALID_CHAR (R245, R246). -/
def decodeFrom : Nat → BitAcc → List Byte → Except Nat (List Byte)
  | _, _, [] => .ok []
  | i, a, c :: cs =>
    if c = padChar then .ok []
    else
      match rev c with
      | none => .error i
      | some v =>
        let a' := a.pushSymbol v
        if 8 ≤ a'.n then
          match decodeFrom (i + 1) ⟨a'.acc, a'.n - 8⟩ cs with
          | .ok out => .ok ((a'.acc >>> (a'.n - 8)).setWidth 8 :: out)
          | .error j => .error j
        else decodeFrom (i + 1) a' cs

/-- `B32Decode(S)` (R246). -/
def b32Decode (S : List Byte) : Except Nat (List Byte) := decodeFrom 0 ⟨0, 0⟩ S

/-- The table of lead bytes above 0x7F (R249). -/
def utf8Lead (b : Byte) : Option Utf8Lead :=
  if 0xC2 ≤ b ∧ b ≤ 0xDF then some ⟨2, 0x80, 0xBF⟩
  else if b = 0xE0 then some ⟨3, 0xA0, 0xBF⟩
  else if (0xE1 ≤ b ∧ b ≤ 0xEC) ∨ (0xEE ≤ b ∧ b ≤ 0xEF) then some ⟨3, 0x80, 0xBF⟩
  else if b = 0xED then some ⟨3, 0x80, 0x9F⟩
  else if b = 0xF0 then some ⟨4, 0x90, 0xBF⟩
  else if 0xF1 ≤ b ∧ b ≤ 0xF3 then some ⟨4, 0x80, 0xBF⟩
  else if b = 0xF4 then some ⟨4, 0x80, 0x8F⟩
  else none

/-- The length of the well-formed sequence a byte sequence begins with, if it begins with one (R249). -/
def utf8SeqLen : List Byte → Option Nat
  | [] => none
  | b :: bs =>
    if b ≤ 0x7F then some 1
    else
      match utf8Lead b with
      | none => none
      | some r =>
        let tail := bs.take (r.len - 1)
        let second := (tail.getD 0 0).toNat
        if tail.length = r.len - 1 ∧ r.lo ≤ second ∧ second ≤ r.hi ∧
            (tail.drop 1).all (fun c => 0x80 ≤ c ∧ c ≤ 0xBF) then some r.len
        else none

/-- `UTF8FirstBad` from index `i` on, the first `skip` bytes belonging to a sequence already accepted (R249). -/
def firstBadFrom : Nat → Nat → List Byte → Option Nat
  | _, _, [] => none
  | skip + 1, i, _ :: bs => firstBadFrom skip (i + 1) bs
  | 0, i, b :: bs =>
    match utf8SeqLen (b :: bs) with
    | none => some i
    | some m => firstBadFrom (m - 1) (i + 1) bs

/-- `UTF8FirstBad(S)` (R249). -/
def utf8FirstBad (S : List Byte) : Option Nat := firstBadFrom 0 0 S

/-- B32_ENCODE (R250). -/
def execB32Encode (s : State) : Host.Outcome State Fault Refusal :=
  runChecked [.inLong] s fun s =>
    let m := s.readIn
    (m.2.putOut (b32Encode m.1)).succeed false

/-- B32_DECODE (R251). -/
def execB32Decode (s : State) : Host.Outcome State Fault Refusal :=
  runChecked [.inLong] s fun s =>
    let m := s.readIn
    match b32Decode m.1 with
    | .error i => m.2.raiseError .invalidChar i
    | .ok D => (m.2.putOut D).succeed false

/-- B32_DECODE_TEXT (R252). -/
def execB32DecodeText (s : State) : Host.Outcome State Fault Refusal :=
  runChecked [.inLong] s fun s =>
    let m := s.readIn
    match b32Decode m.1 with
    | .error i => m.2.raiseError .invalidChar i
    | .ok D =>
      match utf8FirstBad D with
      | some j => m.2.raiseError .decodeFailure j
      | none => (m.2.putOut D).succeed false

end Sys2Proof.Machine
end

