-- ==== Sys2Proof/Machine/Sha1.lean ====
section
/-! DEFINITION. The Digest Engine and SHA1_HASH (spec/40_sha1.md). -/

namespace Sys2Proof.Machine

/-- The initial hash state (R121). -/
def hashInit : HashWords := ⟨0x67452301, 0xEFCDAB89, 0x98BADCFE, 0x10325476, 0xC3D2E1F0⟩

/-- `Z = (55 - L) mod 64`, the number of zero bytes (R122). -/
def padZeros (L : Nat) : Nat := ((55 - (L : Int)) % 64).toNat

/-- `pad(M)` (R122). -/
def pad (M : List Byte) : List Byte :=
  M ++ [0x80] ++ List.replicate (padZeros M.length) 0x00 ++ bytesBe64 (BitVec.ofNat 64 (8 * M.length))

/-- The 16 message words of a block (R124). -/
def blockWords (B : List Byte) : List Word := (List.range 16).map fun t => be32 (slice B (4 * t) 4)

/-- `W[t]` from the words before it, the latest first (R125). -/
def nextWord (ws : List Word) : Word :=
  rotl32 (ws.getD 2 0 ^^^ ws.getD 7 0 ^^^ ws.getD 13 0 ^^^ ws.getD 15 0) 1

/-- Extend a schedule, the latest word first, by `n` words (R125). -/
def extendWords : Nat → List Word → List Word
  | 0, ws => ws
  | n + 1, ws => extendWords n (nextWord ws :: ws)

/-- The message schedule `W[0..79]` of a block (R124, R125). -/
def schedule (B : List Byte) : List Word := (extendWords 64 (blockWords B).reverse).reverse

/-- The round function `f(t, B, C, D)` (R126). -/
def roundFn (t : Nat) (b c d : Word) : Word :=
  if t < 20 then (b &&& c) ||| (~~~b &&& d)
  else if t < 40 then b ^^^ c ^^^ d
  else if t < 60 then (b &&& c) ||| (b &&& d) ||| (c &&& d)
  else b ^^^ c ^^^ d

/-- The round constant `K(t)` (R127). -/
def roundConst (t : Nat) : Word :=
  if t < 20 then 0x5A827999
  else if t < 40 then 0x6ED9EBA1
  else if t < 60 then 0x8F1BBCDC
  else 0xCA62C1D6

/-- Round `t` with schedule word `w` (R128). -/
def roundStep (t : Nat) (v : HashWords) (w : Word) : HashWords :=
  ⟨rotl32 v.h0 5 + roundFn t v.h1 v.h2 v.h3 + v.h4 + w + roundConst t, v.h0, rotl32 v.h1 30, v.h2, v.h3⟩

/-- The rounds of a schedule from the working words `v` on, the first one being round `t` (R129). -/
def rounds : Nat → HashWords → List Word → HashWords
  | _, v, [] => v
  | t, v, w :: ws => rounds (t + 1) (roundStep t v w) ws

/-- The compression function (R129), with its accumulation (R130). -/
def compress (H : HashWords) (B : List Byte) : HashWords :=
  let v := rounds 0 H (schedule B)
  ⟨H.h0 + v.h0, H.h1 + v.h1, H.h2 + v.h2, H.h3 + v.h3, H.h4 + v.h4⟩

/-- The digest's bytes (R131). -/
def HashWords.bytes (H : HashWords) : List Byte :=
  bytesBe32 H.h0 ++ bytesBe32 H.h1 ++ bytesBe32 H.h2 ++ bytesBe32 H.h3 ++ bytesBe32 H.h4

/-- The chaining words after all blocks of a padded message (R132). -/
def hashBlocks (P : List Byte) : HashWords :=
  (List.range (P.length / Config.blockBytes)).foldl
    (fun H j => compress H (slice P (Config.blockBytes * j) Config.blockBytes)) hashInit

/-- `SHA1(M)` (R132). -/
def sha1 (M : List Byte) : List Byte := (hashBlocks (pad M)).bytes

/-- SHA1_HASH (R134). -/
def execSha1Hash (s : State) : Host.Outcome State Fault Refusal :=
  runChecked [.inLong] s fun s =>
    let m := s.readIn
    let dg := sha1 m.1
    ((m.2.putDigest dg).putOut dg).succeed false

end Sys2Proof.Machine
end

