-- ==== Sys2Proof/Machine/Hmac.lean ====
section
/-! DEFINITION. The HMAC Constructor and HMAC_SHA1 (spec/41_hmac.md). -/

namespace Sys2Proof.Machine

/-- `K0`: the key zero-padded on the right to the block size (R172). -/
def padKey (K : List Byte) : List Byte := K ++ List.replicate (Config.blockBytes - K.length) 0x00

/-- The padded key XORed byte-wise with a pad constant (R173). -/
def xorPad (c : Byte) (K : List Byte) : List Byte := (padKey K).map (· ^^^ c)

/-- `inner` (R174), with `ipad` = 0x36 (R173). -/
def hmacInner (K M : List Byte) : List Byte := sha1 (xorPad 0x36 K ++ M)

/-- `HMAC(K, M)` (R174), with `opad` = 0x5C (R173). -/
def hmac (K M : List Byte) : List Byte := sha1 (xorPad 0x5C K ++ hmacInner K M)

/-- HMAC_SHA1 (R175). -/
def execHmacSha1 (s : State) : Host.Outcome State Fault Refusal :=
  runChecked [.keyLong, .inLong] s fun s =>
    let k := s.readKey
    let m := k.2.readIn
    let r := hmac k.1 m.1
    ((m.2.putDigest r).putOut r).succeed false

end Sys2Proof.Machine
end

