-- ==== Sys2Proof/Machine/Otp.lean ====
section
/-! DEFINITION. Dynamic truncation, HOTP, the TOTP counter, verification, and the five commands that use them
(spec/42_otp.md). -/

namespace Sys2Proof.Machine

/-- `offset = HS[19] and 0x0F` (R192). -/
def truncOffset (HS : List Byte) : Byte := HS.getD 19 0 &&& 0x0F

/-- `P = be32(HS[offset..offset+4)) and 0x7FFFFFFF` (R193). -/
def truncValue (HS : List Byte) : Word := be32 (slice HS (truncOffset HS).toNat 4) &&& 0x7FFFFFFF

/-- `code = P mod 10^d` (R194). -/
def codeValue (P : Word) (d : Nat) : Word := BitVec.ofNat 32 (P.toNat % 10 ^ d)

/-- The dynamic truncation of a 20-byte HMAC result with `d` digits (R192 to R194). -/
def truncateHs (HS : List Byte) (d : Nat) : Truncation :=
  ⟨(truncOffset HS).setWidth 32, truncValue HS, codeValue (truncValue HS) d⟩

/-- `str_d(code)`: byte `i` is `0x30 + floor(code / 10^(d-1-i)) mod 10` (R195). -/
def codeString (d : Nat) (code : Word) : List Byte :=
  (List.range d).map fun i => 0x30 + BitVec.ofNat 8 (code.toNat / 10 ^ (d - 1 - i) % 10)

/-- `HOTP(K, CB, d)` (R196). -/
def hotp (K CB : List Byte) (d : Nat) : HotpResult :=
  let HS := hmac K CB
  ⟨HS, truncateHs HS d⟩

/-- `T(ms, step) = floor(floor(ms / 1000) / step)` (R198). -/
def totpCounter (ms : DWord) (step : Word) : DWord := BitVec.ofNat 64 (ms.toNat / 1000 / step.toNat)

/-- `zpad_d(cand)` (R201). -/
def padCandidate (d : Nat) (cand : List Byte) : List Byte := List.replicate (d - cand.length) 0x30 ++ cand

/-- The counter of attempt `i`: `(T -64 w) +64 i` (R200). -/
def attemptCounter (T : DWord) (w i : Nat) : DWord := T - BitVec.ofNat 64 w + BitVec.ofNat 64 i

/-- Whether the code of counter `C` is the padded candidate (R200). -/
def attempt (K target : List Byte) (C : DWord) (d : Nat) : Bool :=
  codeString d (hotp K (bytesBe64 C) d).tr.code == target

/-- `Verify(K, cand, T, w, d)` (R200). -/
def verify (K cand : List Byte) (T : DWord) (w d : Nat) : Bool :=
  (List.range (2 * w + 1)).any fun i => attempt K (padCandidate d cand) (attemptCounter T w i) d

/-- HOTP_GEN (R202). -/
def execHotpGen (s : State) : Host.Outcome State Fault Refusal :=
  runChecked [.digits, .keyLong] s fun s =>
    let k := s.readKey
    let r := hotp k.1 (bytesBe64 s.counter) s.cfgDigits
    (((k.2.putDigest r.hs).putTruncation r.tr).putOut (codeString s.cfgDigits r.tr.code)).succeed false

/-- HOTP_TRUNC (R203). -/
def execHotpTrunc (s : State) : Host.Outcome State Fault Refusal :=
  runChecked [.digits, .inNot20] s fun s =>
    let m := s.readIn
    let t := truncateHs m.1 s.cfgDigits
    ((m.2.putTruncation t).putOut (codeString s.cfgDigits t.code)).succeed false

/-- TOTP_COUNTER (R204). -/
def execTotpCounter (s : State) : Host.Outcome State Fault Refusal :=
  runChecked [.tstep] s fun s => ((s.putCounter (totpCounter s.time s.tstep)).putOut []).succeed false

/-- TOTP_GEN (R205). -/
def execTotpGen (s : State) : Host.Outcome State Fault Refusal :=
  runChecked [.digits, .tstep, .keyLong] s fun s =>
    let T := totpCounter s.time s.tstep
    let k := s.readKey
    let r := hotp k.1 (bytesBe64 T) s.cfgDigits
    ((((k.2.putCounter T).putDigest r.hs).putTruncation r.tr).putOut
      (codeString s.cfgDigits r.tr.code)).succeed false

/-- TOTP_VERIFY (R206). -/
def execTotpVerify (s : State) : Host.Outcome State Fault Refusal :=
  runChecked [.digits, .tstep, .keyLong, .inLong] s fun s =>
    let T := totpCounter s.time s.tstep
    let k := s.readKey
    let c := k.2.readIn
    ((c.2.putCounter T).putOut []).succeed (verify k.1 c.1 T s.cfgWindow s.cfgDigits)

end Sys2Proof.Machine
end

