-- ==== Sys2Proof/Machine/Dispatch.lean ====
section
/-! DEFINITION. What each command does to the state it starts in (spec/30_encoding.md R92). -/

namespace Sys2Proof.Machine

def exec (i : Instr) (s : State) : Host.Outcome State Fault Refusal :=
  match i with
  | .sha1Hash => Sys2Proof.Machine.execSha1Hash s
  | .hmacSha1 => Sys2Proof.Machine.execHmacSha1 s
  | .hotpGen => Sys2Proof.Machine.execHotpGen s
  | .hotpTrunc => Sys2Proof.Machine.execHotpTrunc s
  | .totpCounter => Sys2Proof.Machine.execTotpCounter s
  | .totpGen => Sys2Proof.Machine.execTotpGen s
  | .totpVerify => Sys2Proof.Machine.execTotpVerify s
  | .b32Encode => Sys2Proof.Machine.execB32Encode s
  | .b32Decode => Sys2Proof.Machine.execB32Decode s
  | .b32DecodeText => Sys2Proof.Machine.execB32DecodeText s

end Sys2Proof.Machine
end

