-- ==== Sys2Proof/Machine/HostPort.lean ====
section
/-! DEFINITION. The host port: host reads and writes, the command a CMD write runs, reset and power
(spec/20_memory.md R62 to R68; spec/30_encoding.md R90; spec/60_exceptions.md R298, R304;
spec/70_reset_and_hazards.md R320, R321, R326). -/

namespace Sys2Proof.Machine

/-- A CMD write of word `v` runs its command, or raises ILLEGAL_CMD without running any part of one (R90, R91,
R93). The write completes with the command (R326). -/
def runCommand (v : Word) (s : State) : Host.Outcome State Fault Refusal :=
  match decode v with
  | .ok i => exec i s
  | .error _ => .next (s.raiseError .illegalCmd 0)

/-- Answer the host. -/
def State.answer (s : State) (r : Reply) : State := { s with reply := r }

/-- Answer the host with any value (R320, R321; log entry 6). -/
def State.answerFree (s : State) : State :=
  { s with reply := Config.freeReply s.draws, draws := s.draws + 1 }

/-- Answer a read of `n` bytes of a buffer (R62). -/
def State.readBuffer (s : State) (off n : Nat) : State :=
  if n = 4 then
    let r := s.readSpan off 4
    r.2.answer (.word (ofLanes r.1))
  else
    let r := s.readByte off
    r.2.answer (.byte r.1)

/-- A legal host read (R62). -/
def portRead (s : State) (off n : Nat) : State :=
  match s.params.regionOf off with
  | .reg r => s.answer (.word (s.readReg r))
  | .key | .inBuf | .outBuf => s.readBuffer off n
  | .unassigned => s.answer (if n = 4 then .word 0 else .byte 0)

/-- Store `n` bytes into the KEY or the IN buffer (R63, R68). -/
def State.writeBuffer (s : State) (off n : Nat) (v : Word) : State :=
  { s with mem := s.mem.writeSpan off ((lanes v).take n) }

/-- A legal host write (R63). -/
def portWrite (s : State) (off n : Nat) (v : Word) : Host.Outcome State Fault Refusal :=
  match s.params.regionOf off with
  | .reg .cmd => runCommand v (s.answer .written)
  | .reg r => .next ((s.writeReg r v).answer .written)
  | .key | .inBuf => .next ((s.writeBuffer off n v).answer .written)
  | .outBuf | .unassigned => .next (s.answer .written)

/-- A host access to a running engine. One that R64 or R65 forbids is a bus error (R298; log entry 10); one
outside the window is not the engine's (R66; log entry 11). -/
def serveAccess (a : Access) (s : State) : Host.Outcome State Fault Refusal :=
  match a with
  | .read addr n =>
    match s.params.windowOffset addr with
    | none => .refused .outsideWindow
    | some off => if legalAccess off n then .next (portRead s off n) else .fault .busError
  | .write addr n v =>
    match s.params.windowOffset addr with
    | none => .refused .outsideWindow
    | some off => if legalAccess off n then portWrite s off n v else .fault .busError

/-- A host access while reset is asserted: no effect and no defined value (R320; log entry 6). -/
def serveInReset (a : Access) (s : State) : Host.Outcome State Fault Refusal :=
  match a with
  | .read addr _ | .write addr _ _ =>
    match s.params.windowOffset addr with
    | none => .refused .outsideWindow
    | some _ => .next s.answerFree

/-- Serve the next port event, taken off the queue (log entries 4, 6, 7, 9). -/
def serve (e : PortEvent) (s : State) : Host.Outcome State Fault Refusal :=
  match s.phase, e with
  | _, .resetAssert => .next (s.resetRegs .inReset)
  | .unpowered, _ => .fault .noPower
  | _, .powerLoss => .next { s with phase := .unpowered }
  | _, .cmdAbandoned _ => .next (s.resetRegs .inReset).answerFree
  | .running, .resetRelease => .next s
  | .inReset, .resetRelease => .next (s.resetRegs .running)
  | .running, .access a => serveAccess a s
  | .inReset, .access a => serveInReset a s

/-- No event is waiting: the engine is idle and holds its registers and buffers (R304; log entry 5). -/
def idle (s : State) : Host.Outcome State Fault Refusal :=
  match s.phase with
  | .unpowered => .fault .noPower
  | .running | .inReset => .next s

end Sys2Proof.Machine
end

