-- ==== Sys2Proof/Machine/Step.lean ====
section
/-! DEFINITION. One step: the engine serves the oldest waiting port event, whole (spec/20_memory.md R72, R73;
spec/70_reset_and_hazards.md R326). -/

namespace Sys2Proof.Machine

/-- One step of the machine (log entries 4 and 5). -/
def step (s : State) : Host.Outcome State Fault Refusal :=
  match s.port with
  | [] => idle s
  | e :: rest => serve e { s with port := rest }

/-- `s` with the CMD write of the word `w` of `nbits` bits as the next port event of a running engine: this
engine fetches nothing, the host writes command words to CMD (R21, R23; log entry 4). -/
def State.withFetchWord (s : State) (nbits w : Nat) : State :=
  { s with
    phase := .running
    port := .access (.write s.params.engineBase 4 (BitVec.ofNat 32 (w % 2 ^ nbits))) :: s.port }

end Sys2Proof.Machine
end

