-- ==== Sys2Proof/Machine/HostProgram.lean ====
section
/-! DEFINITION. The host-program notation: each statement is one port event, each pseudo-statement the list of
its expansion (spec/30_encoding.md R97, R98). Branches, labels and host assignments belong to the host's own
processor (R97; log entry 19). -/

namespace Sys2Proof.Machine

/-- `sw off, v` (R97). -/
def sw (p : Params) (off : Nat) (v : Word) : PortEvent := .access (.write (p.engineBase + off) 4 v)

/-- `sb off, v` (R97). -/
def sb (p : Params) (off : Nat) (v : Byte) : PortEvent := .access (.write (p.engineBase + off) 1 (v.setWidth 32))

/-- `lw off` (R97). -/
def lw (p : Params) (off : Nat) : PortEvent := .access (.read (p.engineBase + off) 4)

/-- `lb off` (R97). -/
def lb (p : Params) (off : Nat) : PortEvent := .access (.read (p.engineBase + off) 1)

/-- `sb` of each byte of a sequence from an offset on. -/
def sbSpan (p : Params) : Nat → List Byte → List PortEvent
  | _, [] => []
  | off, b :: bs => sb p off b :: sbSpan p (off + 1) bs

/-- `cmd MNEMONIC` (R98). -/
def hostCmd (p : Params) (i : Instr) : List PortEvent := [sw p HostReg.cmd.offset (encode i)]

/-- `setin b0 .. b(n-1)` (R98). -/
def setin (p : Params) (bs : List Byte) : List PortEvent :=
  sbSpan p Config.inBase bs ++ [sw p HostReg.inlen.offset (BitVec.ofNat 32 bs.length)]

/-- `setkey b0 .. b(n-1)` (R98). -/
def setkey (p : Params) (bs : List Byte) : List PortEvent :=
  sbSpan p Config.keyBase bs ++ [sw p HostReg.keylen.offset (BitVec.ofNat 32 bs.length)]

/-- `setctr c` (R98). -/
def setctr (p : Params) (c : DWord) : List PortEvent :=
  [sw p HostReg.counterLo.offset (c.extractLsb' 0 32), sw p HostReg.counterHi.offset (c.extractLsb' 32 32)]

/-- `settime ms` (R98). -/
def settime (p : Params) (ms : DWord) : List PortEvent :=
  [sw p HostReg.timeLo.offset (ms.extractLsb' 0 32), sw p HostReg.timeHi.offset (ms.extractLsb' 32 32)]

/-- `setcfg d, w`: `sw CFG, (w << 8) or d` (R98). -/
def setcfg (p : Params) (d w : Word) : List PortEvent := [sw p HostReg.cfg.offset ((w <<< 8) ||| d)]

/-- The reads of `getout` once the host knows `n = OUTLEN` (R98). -/
def getout (p : Params) (n : Nat) : List PortEvent :=
  lw p HostReg.outlen.offset :: (List.range n).map fun i => lb p (Config.outBase + i)

end Sys2Proof.Machine
end

