-- ==== Sys2Proof/WellFormed.lean ====
section
/-! DEFINITION. Well-formedness: of a command, of the OPEN parameters (spec/00_scope.md R5), and of a host access
and a port event (spec/20_memory.md R60, R64, R65). All are decidable. -/

namespace Sys2Proof

/-- A command has no operand field (spec/30_encoding.md R95), so every command is well-formed. -/
def Instr.wf : Instr → Bool
  | .sha1Hash | .hmacSha1 | .hotpGen | .hotpTrunc | .totpCounter | .totpGen | .totpVerify => true
  | .b32Encode | .b32Decode | .b32DecodeText => true

namespace Machine

/-- IN_BUF_BYTES is a multiple of 4 in 64..4096 (R5); the platform aligns ENGINE_BASE to 16 KiB
(93_implementation_defined.md U10). -/
abbrev Params.wf (p : Params) : Prop :=
  p.inBufBytes % 4 = 0 ∧ 64 ≤ p.inBufBytes ∧ p.inBufBytes ≤ 4096 ∧ p.engineBase % Config.windowBytes = 0

/-- The access is to the window (R60) and is one that R64 and R65 allow. -/
def Access.wf (p : Params) : Access → Bool
  | .read addr n | .write addr n _ =>
    match p.windowOffset addr with
    | some off => legalAccess off n
    | none => false

/-- An event a well-behaved host and platform cause. -/
def PortEvent.wf (p : Params) : PortEvent → Bool
  | .access a => a.wf p
  | .resetAssert | .resetRelease | .cmdAbandoned _ | .powerLoss => true

end Machine

end Sys2Proof
end

