-- ==== Sys2Proof/Safety.lean ====
section
/-! DEFINITION. What a good state is and what a safe run is: the terms the statements use. -/

namespace Sys2Proof.Machine

/-- Every listed byte lies in the KEY, the IN or the OUT buffer, and no OUT byte at or beyond OUTLEN has a value
(spec/20_memory.md R61, R79; spec/60_exceptions.md R293, R294). -/
def State.BytesInPlace (s : State) : Prop :=
  ∀ c ∈ s.mem,
    (Config.keyBase ≤ c.1 ∧ c.1 < Config.keyBase + Config.keyBytes) ∨
    (Config.inBase ≤ c.1 ∧ c.1 < Config.inBase + s.params.inBufBytes) ∨
    (Config.outBase ≤ c.1 ∧ c.1 < Config.outBase + s.outlen.toNat)

/-- The bits a register holds in its reserved fields are 0 (spec/10_state.md R37, R45). -/
def State.ReservedZero (s : State) : Prop := ∀ r : HostReg, s.rawReg r &&& ~~~r.fields = 0

/-- STATUS, ERRIDX and OUTLEN agree with one another as the epilogues leave them (spec/10_state.md R24, R29, R30,
R38; spec/60_exceptions.md R290, R293, R294). -/
structure State.StatusAgrees (s : State) : Prop where
  errIffCode : s.errFlag = true ↔ s.errCode ≠ 0
  codeInRange : s.errCode.toNat ≤ 0x07
  matchOnlyOnSuccess : s.matchFlag = true → s.errFlag = false
  noOutputOnError : s.errFlag = true → s.outlen = 0
  idxOnlyOnDataError : s.erridx ≠ 0 → s.errCode = 0x06 ∨ s.errCode = 0x07

/-- The truncation results stay in the ranges of R33, R34, R192, R193 and R194. -/
structure State.ResultsInRange (s : State) : Prop where
  codeLt : s.code.toNat < 2 ^ 31
  codeLeTrunc : s.code.toNat ≤ s.trunc.toNat
  truncLt : s.trunc.toNat < 2 ^ 31
  dtoffLt : s.dtoff.toNat < 16
  outlenLe : s.outlen.toNat ≤ s.params.outBufBytes

/-- The invariant of the machine. -/
structure State.Inv (s : State) : Prop where
  paramsWf : s.params.wf
  memWf : s.mem.wf
  bytesInPlace : s.BytesInPlace
  reservedZero : s.ReservedZero
  statusAgrees : s.StatusAgrees
  resultsInRange : s.ResultsInRange

/-- A run of `k` steps is safe: it meets no fault and no refusal. -/
def State.SafeRun (s : State) (k : Nat) : Prop := ∃ t, Host.Core.run core k s = .next t

end Sys2Proof.Machine
end

