-- ==== Sys2Proof/Certificates/Slice0/Obligations.lean ====
section
/-! DEFINITION. The statements for the provers. Each quantifies over every state, so over every value of the OPEN
parameters and of the free values. `Statements.…` are the words the statements share. -/

namespace Sys2Proof.Statements

open Sys2Proof.Machine

/-! ## Words the statements share -/

/-- A window offset that lies in the OUT buffer. -/
def InOut (s : State) (a : Nat) : Prop := 0x2000 ≤ a ∧ a < 0x2000 + 8 * ((s.params.inBufBytes + 4) / 5)

/-- What no command writes: CFG, TSTEP, KEYLEN, INLEN, TIME, every byte outside OUT, and the model's own fields. -/
structure InputsKept (s t : State) : Prop where
  cfg : t.cfg = s.cfg
  tstep : t.tstep = s.tstep
  keylen : t.keylen = s.keylen
  inlen : t.inlen = s.inlen
  time : t.time = s.time
  bytes : ∀ a, ¬ InOut s a → t.mem.read? a = s.mem.read? a
  phase : t.phase = s.phase
  params : t.params = s.params
  port : t.port = s.port
  reply : t.reply = s.reply

/-- DIGEST0..4 unchanged. -/
def DigestKept (s t : State) : Prop := t.digest = s.digest

/-- CODE, TRUNC and DTOFF unchanged. -/
def TruncationKept (s t : State) : Prop := t.code = s.code ∧ t.trunc = s.trunc ∧ t.dtoff = s.dtoff

/-- COUNTER unchanged. -/
def CounterKept (s t : State) : Prop := t.counter = s.counter

/-- The command's buffer output is `bs`: OUTLEN is its length, OUT[0..OUTLEN) holds it, and every OUT byte at or
beyond OUTLEN is unspecified. -/
structure Output (s t : State) (bs : List Byte) : Prop where
  fits : bs.length ≤ 8 * ((s.params.inBufBytes + 4) / 5)
  outlen : t.outlen.toNat = bs.length
  bytes : ∀ i, i < bs.length → t.mem.read? (0x2000 + i) = bs[i]?
  stale : ∀ a, InOut s a → 0x2000 + bs.length ≤ a → t.mem.read? a = none

/-- The status of a success with match result `m`: STATUS bit 1 is `m`, every other bit and ERRIDX are 0. -/
def Success (t : State) (m : Bool) : Prop := t.status = (if m then 0x00000002 else 0x00000000) ∧ t.erridx = 0

/-- The error epilogue of R293 with error code `c` and index `idx`: STATUS is `c << 8 | 1`, OUTLEN is 0, every OUT
byte is unspecified, and nothing else changes. -/
structure ErrorEnd (s t : State) (c : Word) (idx : Nat) : Prop where
  status : t.status = (c <<< 8) ||| 1
  erridx : t.erridx = BitVec.ofNat 32 idx
  outlen : t.outlen = 0
  out : ∀ a, InOut s a → t.mem.read? a = none
  inputs : InputsKept s t
  digest : DigestKept s t
  truncation : TruncationKept s t
  counter : CounterKept s t

/-- The five DIGEST words are the big-endian words of `dg` (R70). -/
def DigestIs (t : State) (dg : List Byte) : Prop :=
  bytesBe32 t.digest.h0 ++ bytesBe32 t.digest.h1 ++ bytesBe32 t.digest.h2 ++ bytesBe32 t.digest.h3 ++
    bytesBe32 t.digest.h4 = dg

/-- The truncation results of `HS` with `d` digits, in the document's own formula (R192 to R194). -/
def TruncationIs (t : State) (HS : List Byte) (d : Nat) : Prop :=
  let o := (HS.getD 19 0).toNat % 16
  let p := ((HS.getD o 0).toNat % 128) * 2 ^ 24 + (HS.getD (o + 1) 0).toNat * 2 ^ 16 +
    (HS.getD (o + 2) 0).toNat * 2 ^ 8 + (HS.getD (o + 3) 0).toNat
  t.dtoff.toNat = o ∧ t.trunc.toNat = p ∧ t.code.toNat = p % 10 ^ d

/-- The `d`-digit decimal string of a number (R195). -/
def decimal (d n : Nat) : List Byte := (List.range d).map fun i => BitVec.ofNat 8 (0x30 + n / 10 ^ (d - 1 - i) % 10)

/-- DIGITS is legal (R191). -/
def DigitsLegal (s : State) : Prop := 1 ≤ s.cfgDigits ∧ s.cfgDigits ≤ 10

/-- The opcode map of R92, word by word. -/
def opcodeMap : List (Word × Instr) :=
  [(0x00000001, .sha1Hash), (0x00000002, .hmacSha1), (0x00000003, .hotpGen), (0x00000004, .hotpTrunc),
    (0x00000005, .totpCounter), (0x00000006, .totpGen), (0x00000007, .totpVerify), (0x00000008, .b32Encode),
    (0x00000009, .b32Decode), (0x0000000A, .b32DecodeText)]

/-- The columns of R291's table that hold a register check, per command. -/
def mayRaise : Instr → RegCheck → Prop
  | .sha1Hash, c => c = .inLong
  | .hmacSha1, c => c = .keyLong ∨ c = .inLong
  | .hotpGen, c => c = .digits ∨ c = .keyLong
  | .hotpTrunc, c => c = .digits ∨ c = .inNot20
  | .totpCounter, c => c = .tstep
  | .totpGen, c => c = .digits ∨ c = .tstep ∨ c = .keyLong
  | .totpVerify, c => c = .digits ∨ c = .tstep ∨ c = .keyLong ∨ c = .inLong
  | .b32Encode, c => c = .inLong
  | .b32Decode, c => c = .inLong
  | .b32DecodeText, c => c = .inLong

/-- The condition of a register check (R290). -/
def checkFails (s : State) : RegCheck → Prop
  | .digits => s.cfgDigits = 0 ∨ 10 < s.cfgDigits
  | .tstep => s.tstep = 0
  | .keyLong => 64 < s.keyLen
  | .inLong => s.params.inBufBytes < s.inLen
  | .inNot20 => s.inLen ≠ 20

/-- The error code a register check raises (R290). -/
def checkCode : RegCheck → Word
  | .digits => 0x02
  | .tstep => 0x03
  | .keyLong => 0x04
  | .inLong => 0x05
  | .inNot20 => 0x05

/-- The commands that read KEY (R36). -/
def readsKey : Instr → Prop
  | .hmacSha1 | .hotpGen | .totpGen | .totpVerify => True
  | .sha1Hash | .hotpTrunc | .totpCounter | .b32Encode | .b32Decode | .b32DecodeText => False

/-- The commands that read IN (R36). -/
def readsIn : Instr → Prop
  | .sha1Hash | .hmacSha1 | .hotpTrunc | .totpVerify | .b32Encode | .b32Decode | .b32DecodeText => True
  | .hotpGen | .totpCounter | .totpGen => False

/-- The commands that read CFG.DIGITS (R202, R203, R205, R206). -/
def readsDigits : Instr → Prop
  | .hotpGen | .hotpTrunc | .totpGen | .totpVerify => True
  | .sha1Hash | .hmacSha1 | .totpCounter | .b32Encode | .b32Decode | .b32DecodeText => False

/-- The commands that read TIME and TSTEP (R32, R204 to R206). -/
def readsTime : Instr → Prop
  | .totpCounter | .totpGen | .totpVerify => True
  | .sha1Hash | .hmacSha1 | .hotpGen | .hotpTrunc | .b32Encode | .b32Decode | .b32DecodeText => False

/-- The commands that write DIGEST0..4 on success (R35). -/
def writesDigest : Instr → Prop
  | .sha1Hash | .hmacSha1 | .hotpGen | .totpGen => True
  | .hotpTrunc | .totpCounter | .totpVerify | .b32Encode | .b32Decode | .b32DecodeText => False

/-- The commands that write CODE, TRUNC and DTOFF on success (R33, R34). -/
def writesTruncation : Instr → Prop
  | .hotpGen | .hotpTrunc | .totpGen => True
  | .sha1Hash | .hmacSha1 | .totpCounter | .totpVerify | .b32Encode | .b32Decode | .b32DecodeText => False

/-- The two states agree on what the command reads (the "Operands" lines of R134 to R252, R95) and on IN_BUF_BYTES.
Everything else may differ: every other register, every buffer byte at or beyond KEYLEN or INLEN, STATUS, and the
model's own fields. -/
structure ReadsAgree (i : Instr) (s s' : State) : Prop where
  bufBytes : s'.params.inBufBytes = s.params.inBufBytes
  digits : readsDigits i → s'.cfgDigits = s.cfgDigits
  window : i = .totpVerify → s'.cfgWindow = s.cfgWindow
  tstep : readsTime i → s'.tstep = s.tstep
  time : readsTime i → s'.time = s.time
  counter : i = .hotpGen → s'.counter = s.counter
  keyLen : readsKey i → s'.keyLen = s.keyLen
  inLen : readsIn i → s'.inLen = s.inLen
  keyBytes : readsKey i → ∀ j, j < s.keyLen → j < 64 → s'.mem.read? (0x100 + j) = s.mem.read? (0x100 + j)
  inBytes : readsIn i → ∀ j, j < s.inLen → j < s.params.inBufBytes →
    s'.mem.read? (0x1000 + j) = s.mem.read? (0x1000 + j)

/-- What a command wrote from `s`, ending in `t`, and from `s'`, ending in `u`, is the same: STATUS, ERRIDX, OUTLEN,
every OUT byte, and on success each result register the command writes. A result register it does not write stays what
it was in its own run. -/
structure SameResults (i : Instr) (s s' t u : State) : Prop where
  status : u.status = t.status
  erridx : u.erridx = t.erridx
  outlen : u.outlen = t.outlen
  out : ∀ a, InOut s a → u.mem.read? a = t.mem.read? a
  digest : writesDigest i → t.errFlag = false → u.digest = t.digest
  digestKept : ¬ writesDigest i ∨ t.errFlag = true → DigestKept s t ∧ DigestKept s' u
  truncation : writesTruncation i → t.errFlag = false → u.code = t.code ∧ u.trunc = t.trunc ∧ u.dtoff = t.dtoff
  truncationKept : ¬ writesTruncation i ∨ t.errFlag = true → TruncationKept s t ∧ TruncationKept s' u
  counter : readsTime i → t.errFlag = false → u.counter = t.counter
  counterKept : ¬ readsTime i ∨ t.errFlag = true → CounterKept s t ∧ CounterKept s' u

/-- How many of the `n` bytes from an offset on have no value. -/
def unspecifiedIn (s : State) (a n : Nat) : Nat := ((List.range n).filter fun j => (s.mem.read? (a + j)).isNone).length

/-- The host has written every operand byte the command reads (R324). -/
def OperandsWritten (i : Instr) (s : State) : Prop :=
  (readsKey i → ∀ j, j < s.keyLen → j < 64 → (s.mem.read? (0x100 + j)).isSome) ∧
  (readsIn i → ∀ j, j < s.inLen → j < s.params.inBufBytes → (s.mem.read? (0x1000 + j)).isSome)

/-- Byte `c` has a Base32 value (R241): it is a letter of either case or one of '2'..'7'. -/
def IsSymbol (c : Byte) : Prop :=
  (0x41 ≤ c.toNat ∧ c.toNat ≤ 0x5A) ∨ (0x61 ≤ c.toNat ∧ c.toNat ≤ 0x7A) ∨ (0x32 ≤ c.toNat ∧ c.toNat ≤ 0x37)

/-- The byte is a character of the Base32 alphabet (R240). -/
def InAlphabet (c : Byte) : Prop := (0x41 ≤ c.toNat ∧ c.toNat ≤ 0x5A) ∨ (0x32 ≤ c.toNat ∧ c.toNat ≤ 0x37)

/-- Index `i` of `S` is the first byte before the first '=' that has no Base32 value (R245). -/
def FirstInvalid (S : List Byte) (i : Nat) : Prop :=
  ∃ c, S[i]? = some c ∧ c ≠ 0x3D ∧ ¬ IsSymbol c ∧ ∀ j, j < i → ∃ e, S[j]? = some e ∧ e ≠ 0x3D ∧ IsSymbol e

/-- A continuation byte of UTF-8 (R249). -/
def IsCont (c : Nat) : Prop := 0x80 ≤ c ∧ c ≤ 0xBF

/-- One well-formed UTF-8 sequence: the rows of R249's table. -/
def IsUtf8Seq (S : List Byte) : Prop :=
  (∃ a, S = [a] ∧ a.toNat ≤ 0x7F) ∨
  (∃ a b, S = [a, b] ∧ 0xC2 ≤ a.toNat ∧ a.toNat ≤ 0xDF ∧ IsCont b.toNat) ∨
  (∃ a b c, S = [a, b, c] ∧ IsCont c.toNat ∧
    ((a.toNat = 0xE0 ∧ 0xA0 ≤ b.toNat ∧ b.toNat ≤ 0xBF) ∨
     (((0xE1 ≤ a.toNat ∧ a.toNat ≤ 0xEC) ∨ (0xEE ≤ a.toNat ∧ a.toNat ≤ 0xEF)) ∧ IsCont b.toNat) ∨
     (a.toNat = 0xED ∧ 0x80 ≤ b.toNat ∧ b.toNat ≤ 0x9F))) ∨
  (∃ a b c d, S = [a, b, c, d] ∧ IsCont c.toNat ∧ IsCont d.toNat ∧
    ((a.toNat = 0xF0 ∧ 0x90 ≤ b.toNat ∧ b.toNat ≤ 0xBF) ∨
     (0xF1 ≤ a.toNat ∧ a.toNat ≤ 0xF3 ∧ IsCont b.toNat) ∨
     (a.toNat = 0xF4 ∧ 0x80 ≤ b.toNat ∧ b.toNat ≤ 0x8F)))

/-- The reset column of R22 and R45; CMD reads 0. -/
def resetValue : HostReg → Word
  | .cfg => 0x00000106
  | .tstep => 0x0000001E
  | .cmd | .status | .keylen | .inlen | .outlen | .erridx | .code | .trunc | .dtoff => 0x00000000
  | .counterLo | .counterHi | .timeLo | .timeHi => 0x00000000
  | .digest0 | .digest1 | .digest2 | .digest3 | .digest4 => 0x00000000

/-- The registers read as R45 says they read after reset. -/
def RegistersReset (t : State) : Prop := ∀ r : HostReg, t.readReg r = resetValue r

/-- No byte of any buffer has a value. -/
def BuffersUnspecified (t : State) : Prop := ∀ a, t.mem.read? a = none

/-- The registers a host write stores into (R22). -/
def IsRw : HostReg → Prop
  | .cfg | .tstep | .keylen | .inlen | .counterLo | .counterHi | .timeLo | .timeHi => True
  | .cmd | .status | .outlen | .erridx | .code | .trunc | .dtoff => False
  | .digest0 | .digest1 | .digest2 | .digest3 | .digest4 => False

/-- The next event of a running engine is the access `a`, then `rest`. -/
def Next (s : State) (a : Access) (rest : List PortEvent) : Prop := s.phase = .running ∧ s.port = .access a :: rest

end Sys2Proof.Statements

open Sys2Proof Sys2Proof.Machine Sys2Proof.Statements

/-! ## Encoding and the step -/

/-- R92, R93: a word decodes to a command exactly when it is that command's row of the opcode map, every other
word is rejected, and the map has each command once. -/
def Obligations.DecodeIsTheOpcodeMap : Prop :=
  (∀ v i, decode v = .ok i ↔ (v, i) ∈ opcodeMap) ∧ (∀ i, ∃ v, (v, i) ∈ opcodeMap) ∧
    (∀ v, (∀ i, (v, i) ∉ opcodeMap) → ∃ e, decode v = .error e)

/-- Decoding and encoding agree in both directions, over bytes in the port's lane order (the byte form is the
model's choice, log entry 15). -/
def Obligations.DecodeEncodeAgree : Prop :=
  (∀ i rest, i.wf = true → decodeBytes (encodeBytes i ++ rest) = .ok (i, rest)) ∧
    (∀ bs i rest, decodeBytes bs = .ok (i, rest) → bs = encodeBytes i ++ rest)

/-- R99's and V75's words, written out bit by bit. -/
def Obligations.WrittenOutWordsDecode : Prop :=
  decode 0b00000000000000000000000000000001#32 = .ok .sha1Hash ∧
  decode 0b00000000000000000000000000000010#32 = .ok .hmacSha1 ∧
  decode 0b00000000000000000000000000000110#32 = .ok .totpGen ∧
  decode 0b00000000000000000000000000001001#32 = .ok .b32Decode ∧
  decode 0b00000000000000000000000100000110#32 = .error .reservedBits ∧
  decode 0b00000000000000000000000000001011#32 = .error .unassignedOp

/-- A 32-bit write of a command's word to CMD is, as one step, that command on the state at the write, the event off
the queue and the write answered (the queue and the answer are the model's, log entry 4); and `withFetchWord` sets
up exactly such a write. -/
def Obligations.StepRunsTheDecodedCommand : Prop :=
  (∀ s v i rest, Next s (.write s.params.engineBase 4 v) rest → decode v = .ok i →
      step s = exec i { s with port := rest, reply := .written }) ∧
    (∀ (s : State) w i, decode (BitVec.ofNat 32 w) = .ok i →
      step (s.withFetchWord 32 w) = exec i { s with phase := .running, reply := .written })

/-- R91, R93: a word with a bit of 31:8 set, or with OP 0x00 or 0x0B..0xFF, raises ILLEGAL_CMD and no part of a
command runs. -/
def Obligations.IllegalWordRaisesIllegalCmd : Prop :=
  ∀ s v rest, Next s (.write s.params.engineBase 4 v) rest →
    (v.toNat / 256 ≠ 0 ∨ v.toNat % 256 = 0 ∨ 0x0A < v.toNat % 256) →
    ∃ t, step s = .next t ∧ ErrorEnd { s with port := rest, reply := .written } t 0x01 0

/-! ## Reset, idling, power -/

/-- R45: what reset leaves. -/
def Obligations.ResetLeavesTheResetValues : Prop :=
  RegistersReset State.reset ∧ BuffersUnspecified State.reset ∧ State.reset.errFlag = false ∧
    State.reset.matchFlag = false ∧ State.reset.errCode = 0 ∧ State.reset.cfgDigits = 6 ∧ State.reset.cfgWindow = 1

/-- R320, R321: asserting reset, in any phase and also while a command runs, leaves the reset state and nothing of an
abandoned command; while it is asserted, accesses to the window change no register and no byte; releasing it leaves
the reset state to the first access after. The event form is the model's (log entries 6 and 7). -/
def Obligations.ResetInputLeavesTheResetState : Prop :=
  (∀ s rest, s.port = .resetAssert :: rest →
      ∃ t, step s = .next t ∧ RegistersReset t ∧ BuffersUnspecified t ∧ t.phase = .inReset ∧ t.port = rest) ∧
    (∀ s v rest, s.phase ≠ .unpowered → s.port = .cmdAbandoned v :: rest →
      ∃ t, step s = .next t ∧ RegistersReset t ∧ BuffersUnspecified t ∧ t.phase = .inReset ∧ t.port = rest) ∧
    (∀ s rest, s.phase = .inReset → s.port = .resetRelease :: rest →
      ∃ t, step s = .next t ∧ RegistersReset t ∧ BuffersUnspecified t ∧ t.phase = .running ∧ t.port = rest) ∧
    (∀ s a rest off, s.phase = .inReset → s.port = .access a :: rest →
      (∃ n, a = .read (s.params.engineBase + off) n ∨ ∃ v, a = .write (s.params.engineBase + off) n v) → off < 0x4000 →
      ∃ t, step s = .next t ∧ (∀ r : HostReg, t.rawReg r = s.rawReg r) ∧ t.mem = s.mem ∧ t.phase = .inReset ∧
        t.port = rest)

/-- R304, U11: with no access waiting, a powered engine holds everything; after loss of power no step is defined
until a reset (the event form is the model's, log entries 5 and 9). -/
def Obligations.IdleHoldsAndNoStepWithoutPower : Prop :=
  (∀ s, s.port = [] → s.phase ≠ .unpowered → step s = .next s) ∧
    (∀ s rest, s.phase ≠ .unpowered → s.port = .powerLoss :: rest →
      step s = .next { s with phase := .unpowered, port := rest }) ∧
    (∀ s, s.phase = .unpowered → (∀ rest, s.port ≠ .resetAssert :: rest) → step s = .fault .noPower)

/-! ## The host port -/

/-- R64, R65, R298: inside the window, an access of 4 bytes at a multiple of 4, or of 1 byte at 0x100 or above, is
served; every other one is a bus error. -/
def Obligations.BusErrorExactlyOnForbiddenAccess : Prop :=
  ∀ s a n off rest, Next s a rest → off < 0x4000 →
    (a = .read (s.params.engineBase + off) n ∨ ∃ v, a = .write (s.params.engineBase + off) n v) →
    ((n = 4 ∧ off % 4 = 0) ∨ (n = 1 ∧ 0x100 ≤ off) → ∃ t, step s = .next t) ∧
    (¬ ((n = 4 ∧ off % 4 = 0) ∨ (n = 1 ∧ 0x100 ≤ off)) → step s = .fault .busError)

/-- R62, R79: what a legal read returns, and that it changes nothing the engine holds. A register reads its fields with
reserved bits 0. A buffer byte that has a value is that value, one that has none a fresh draw; four bytes come in
little-endian lanes, each a value or a draw of its own, drawn by rising offset. The queue, the answer, and the count and
the order of draws are the model's (log entries 2, 3 and 4). -/
def Obligations.ReadReturnsTheValueAndChangesNothing : Prop :=
  ∀ s n off rest, s.params.wf → Next s (.read (s.params.engineBase + off) n) rest → off < 0x4000 →
    ((n = 4 ∧ off % 4 = 0) ∨ (n = 1 ∧ 0x100 ≤ off)) →
    ∃ t d, step s = .next t ∧ t = { s with port := rest, reply := t.reply, draws := d } ∧
      (∀ r : HostReg, off = r.offset → t.reply = .word (s.readReg r) ∧ d = s.draws) ∧
      ((∃ i, i < 64 ∧ off = 0x100 + i) ∨ (∃ i, i < s.params.inBufBytes ∧ off = 0x1000 + i) ∨ InOut s off →
        d = s.draws + unspecifiedIn s off n ∧
        (∀ b, n = 1 → s.mem.read? off = some b → t.reply = .byte b) ∧
        (n = 1 → s.mem.read? off = none → t.reply = .byte (Config.freeByte s.draws)) ∧
        (n = 4 → ∃ b0 b1 b2 b3 : Byte, t.reply = .word (b3 ++ b2 ++ b1 ++ b0) ∧
          ∀ j b, [b0, b1, b2, b3][j]? = some b →
            (∀ v, s.mem.read? (off + j) = some v → b = v) ∧
            (s.mem.read? (off + j) = none → b = Config.freeByte (s.draws + unspecifiedIn s off j))))

/-- R66: an unassigned offset reads 0 and ignores a write. -/
def Obligations.UnassignedReadsZeroAndIgnoresWrites : Prop :=
  ∀ s n off rest, (off = 0x2C ∨ (0x54 ≤ off ∧ off < 0x100) ∨ (0x140 ≤ off ∧ off < 0x1000) ∨
      (0x1000 + s.params.inBufBytes ≤ off ∧ off < 0x2000) ∨
      (0x2000 + 8 * ((s.params.inBufBytes + 4) / 5) ≤ off ∧ off < 0x4000)) → s.params.wf →
    ((n = 4 ∧ off % 4 = 0) ∨ (n = 1 ∧ 0x100 ≤ off)) →
    (Next s (.read (s.params.engineBase + off) n) rest →
      step s = .next { s with port := rest, reply := if n = 4 then .word 0 else .byte 0 }) ∧
    (∀ v, Next s (.write (s.params.engineBase + off) n v) rest →
      step s = .next { s with port := rest, reply := .written })

/-- An access outside the window is not the engine's (R66): the model refuses it by name, which is the model's choice
(log entry 11). -/
def Obligations.OutsideTheWindowIsRefused : Prop :=
  ∀ s addr n rest, (addr < s.params.engineBase ∨ s.params.engineBase + 0x4000 ≤ addr) →
    (Next s (.read addr n) rest → step s = .refused .outsideWindow) ∧
    (∀ v, Next s (.write addr n v) rest → step s = .refused .outsideWindow)

/-- R67: a write to an RO register or to OUT is ignored and signals no error. -/
def Obligations.WriteToReadOnlyIsIgnored : Prop :=
  (∀ s r v rest, ¬ IsRw r → r ≠ .cmd → Next s (.write (s.params.engineBase + r.offset) 4 v) rest →
      step s = .next { s with port := rest, reply := .written }) ∧
    (∀ s n off v rest, s.params.wf → InOut s off → ((n = 4 ∧ off % 4 = 0) ∨ n = 1) →
      Next s (.write (s.params.engineBase + off) n v) rest →
      step s = .next { s with port := rest, reply := .written })

/-- R22, R37, R64: a write to an RW register stores its non-reserved fields (reserved bits read 0 after), and changes
no other register, so that each half of COUNTER and of TIME is written alone, and no byte. -/
def Obligations.RegisterWriteStoresItsFieldsAlone : Prop :=
  ∀ s r v rest, IsRw r → Next s (.write (s.params.engineBase + r.offset) 4 v) rest →
    ∃ t, step s = .next t ∧
      t.readReg r = (if r = .cfg then v &&& 0x0000FF0F else if r = .keylen then v &&& 0x000000FF else v) ∧
      t.rawReg r &&& ~~~r.fields = s.rawReg r &&& ~~~r.fields ∧
      (∀ r', r' ≠ r → t.rawReg r' = s.rawReg r') ∧ t.mem = s.mem ∧ t.params = s.params ∧ t.phase = s.phase ∧
      t.draws = s.draws ∧ t.port = rest ∧ t.reply = .written

/-- R63, R68: a write to KEY or IN stores its byte, or its four little-endian lanes, and changes no other byte and no
register. -/
def Obligations.BufferWriteStoresItsLanesAlone : Prop :=
  ∀ s n off v rest, s.params.wf →
    ((0x100 ≤ off ∧ off < 0x140) ∨ (0x1000 ≤ off ∧ off < 0x1000 + s.params.inBufBytes)) →
    ((n = 4 ∧ off % 4 = 0) ∨ n = 1) → Next s (.write (s.params.engineBase + off) n v) rest →
    ∃ t, step s = .next t ∧ t = { s with mem := t.mem, port := rest, reply := .written } ∧
      (∀ j, j < n → t.mem.read? (off + j) = some (BitVec.ofNat 8 (v.toNat / 256 ^ j))) ∧
      (∀ a, a < off ∨ off + n ≤ a → t.mem.read? a = s.mem.read? a)

/-- R68: an 8-bit read at `4k+j` returns bits `8j+7:8j` of the 32-bit read at `4k`, for bytes that have values. -/
def Obligations.ByteReadIsALaneOfTheWordRead : Prop :=
  ∀ s off j w rest t, s.params.wf →
    ((0x100 ≤ off ∧ off < 0x140) ∨ (0x1000 ≤ off ∧ off < 0x1000 + s.params.inBufBytes) ∨ InOut s off) →
    off % 4 = 0 → j < 4 → (∀ k, k < 4 → (s.mem.read? (off + k)).isSome) →
    Next s (.read (s.params.engineBase + off) 4) rest → step s = .next t → t.reply = .word w →
    step { s with port := .access (.read (s.params.engineBase + (off + j)) 1) :: rest } =
      .next { s with port := rest, reply := .byte (BitVec.ofNat 8 (w.toNat / 2 ^ (8 * j))) }

/-- R98: the expansions of `setin`, `setkey`, `setctr`, `settime` and `setcfg`, run on a running engine, load exactly
what they name, the bytes and the length, the counter, the time, the configuration, and change nothing else but the queue
and the answer, which are the model's (log entry 4). Reserved bits stay as they were (R37). -/
def Obligations.HostPseudoStatementsLoadOperands : Prop :=
  ∀ s rest, s.params.wf → s.phase = .running →
    (∀ bs, bs.length ≤ s.params.inBufBytes → s.port = setin s.params bs ++ rest →
      ∃ t, Host.Core.run core (bs.length + 1) s = .next t ∧ t.inLen = bs.length ∧
        t = { s with mem := t.mem, inlen := t.inlen, port := rest, reply := .written } ∧
        (∀ j, j < bs.length → t.mem.read? (0x1000 + j) = bs[j]?) ∧
        (∀ a, a < 0x1000 ∨ 0x1000 + bs.length ≤ a → t.mem.read? a = s.mem.read? a)) ∧
    (∀ bs, bs.length ≤ 64 → s.port = setkey s.params bs ++ rest →
      ∃ t, Host.Core.run core (bs.length + 1) s = .next t ∧ t.keyLen = bs.length ∧
        t = { s with mem := t.mem, keylen := t.keylen, port := rest, reply := .written } ∧
        t.keylen &&& 0xFFFFFF00 = s.keylen &&& 0xFFFFFF00 ∧
        (∀ j, j < bs.length → t.mem.read? (0x100 + j) = bs[j]?) ∧
        (∀ a, a < 0x100 ∨ 0x100 + bs.length ≤ a → t.mem.read? a = s.mem.read? a)) ∧
    (∀ c, s.port = setctr s.params c ++ rest →
      Host.Core.run core 2 s = .next { s with counter := c, port := rest, reply := .written }) ∧
    (∀ ms, s.port = settime s.params ms ++ rest →
      Host.Core.run core 2 s = .next { s with time := ms, port := rest, reply := .written }) ∧
    (∀ d w, d < 16 → w < 256 → s.port = setcfg s.params (BitVec.ofNat 32 d) (BitVec.ofNat 32 w) ++ rest →
      ∃ t, Host.Core.run core 1 s = .next t ∧ t.cfgDigits = d ∧ t.cfgWindow = w ∧
        t = { s with cfg := t.cfg, port := rest, reply := .written } ∧
        t.cfg &&& 0xFFFF00F0 = s.cfg &&& 0xFFFF00F0)

/-- R79: an operand byte that has a value is that value and costs no draw; one that has none is the next draw. -/
def Obligations.OperandReadTakesValuesOrFreshDraws : Prop :=
  ∀ (s : State) (a n : Nat), (s.readSpan a n).1.length = n ∧
    (∀ i b, i < n → s.mem.read? (a + i) = some b → (s.readSpan a n).1[i]? = some b) ∧
    (∀ i, i < n → s.mem.read? (a + i) = none →
      (s.readSpan a n).1[i]? = some (Config.freeByte (s.draws + unspecifiedIn s a i))) ∧
    (s.readSpan a n).2 = { s with draws := s.draws + unspecifiedIn s a n }

/-! ## Epilogues, errors, frames of every command -/

/-- R290, R293: the error epilogue, for each error of the table and every index. -/
def Obligations.ErrorEpilogueReportsAndChangesNothingElse : Prop :=
  ∀ (s : State) (idx : Nat),
    ErrorEnd s (s.raiseError .illegalCmd idx) 0x01 idx ∧ ErrorEnd s (s.raiseError .badDigits idx) 0x02 idx ∧
    ErrorEnd s (s.raiseError .badTstep idx) 0x03 idx ∧ ErrorEnd s (s.raiseError .keyTooLong idx) 0x04 idx ∧
    ErrorEnd s (s.raiseError .badInlen idx) 0x05 idx ∧ ErrorEnd s (s.raiseError .invalidChar idx) 0x06 idx ∧
    ErrorEnd s (s.raiseError .decodeFailure idx) 0x07 idx

/-- R291, R292: a command whose registers fail one of its checks ends with the error of the first failing check, in
the order of R292, with index 0. -/
def Obligations.FirstFailingCheckIsReported : Prop :=
  ∀ i s c, mayRaise i c → checkFails s c →
    (∀ c', mayRaise i c' → (checkCode c').toNat < (checkCode c).toNat → ¬ checkFails s c') →
    ∃ t, exec i s = .next t ∧ ErrorEnd s t (checkCode c) 0

/-- R291, R38: a command whose registers fail none of its checks ends without error, unless it is a Base32 decode,
which can then raise INVALID_CHAR, or, B32_DECODE_TEXT only, DECODE_FAILURE. -/
def Obligations.NoFailingCheckNoRegisterError : Prop :=
  ∀ i s, (∀ c, mayRaise i c → ¬ checkFails s c) →
    ∃ t, exec i s = .next t ∧
      (t.errFlag = true → (t.errCode = 0x06 ∧ (i = .b32Decode ∨ i = .b32DecodeText)) ∨
        (t.errCode = 0x07 ∧ i = .b32DecodeText)) ∧
      (t.errFlag = false → t.errCode = 0)

/-- The frame of every command, on success and on error (R31 to R36, the "Unchanged" lines of R134 to R252): no
command writes KEY, IN, CFG, TSTEP, KEYLEN, INLEN or TIME, or any byte outside OUT; DIGEST, the truncation results
and COUNTER change only by the commands that write them. -/
def Obligations.CommandsKeepWhatTheyDoNotWrite : Prop :=
  ∀ i s t, s.params.wf → exec i s = .next t → InputsKept s t ∧
    (i ≠ .sha1Hash ∧ i ≠ .hmacSha1 ∧ i ≠ .hotpGen ∧ i ≠ .totpGen → DigestKept s t) ∧
    (i ≠ .hotpGen ∧ i ≠ .hotpTrunc ∧ i ≠ .totpGen → TruncationKept s t) ∧
    (i ≠ .totpCounter ∧ i ≠ .totpGen ∧ i ≠ .totpVerify → CounterKept s t) ∧
    (t.errFlag = true → DigestKept s t ∧ TruncationKept s t ∧ CounterKept s t)

/-- R38: every command writes both flags: ERR exactly with an error code, MATCH exactly when the command was a
TOTP_VERIFY that succeeded and whose verify function returned true; no command reads either flag, nor the rest of
STATUS; both reset to 0. -/
def Obligations.FlagsAreWrittenByEveryCommandAndReadByNone : Prop :=
  (∀ i s t, exec i s = .next t →
      (t.errFlag = true ↔ t.errCode ≠ 0) ∧
      (t.matchFlag = true ↔ i = .totpVerify ∧ t.errFlag = false ∧
        verify s.readKey.1 s.readKey.2.readIn.1 (totpCounter s.time s.tstep) s.cfgWindow s.cfgDigits = true)) ∧
    (∀ i s x, exec i { s with status := x } = exec i s) ∧
    State.reset.errFlag = false ∧ State.reset.matchFlag = false

/-! ## What each command does

Each says which word is the command's, what it does on every operand its checks admit, and what each check raises. -/

/-- R134: SHA1_HASH on every input that fits; BAD_INLEN on every other. -/
def Obligations.Sha1HashResult : Prop :=
  decode 0x00000001 = .ok .sha1Hash ∧
  (∀ s : State, s.params.wf → s.inLen ≤ s.params.inBufBytes →
    ∃ t, exec .sha1Hash s = .next t ∧ DigestIs t (sha1 s.readIn.1) ∧ Output s t (sha1 s.readIn.1) ∧
      t.outlen = 20 ∧ Success t false ∧ InputsKept s t ∧ TruncationKept s t ∧ CounterKept s t) ∧
  (∀ s : State, s.params.inBufBytes < s.inLen → ∃ t, exec .sha1Hash s = .next t ∧ ErrorEnd s t 0x05 0)

/-- R175: HMAC_SHA1 on every key of at most 64 bytes and every input that fits; KEY_TOO_LONG, then BAD_INLEN. -/
def Obligations.HmacSha1Result : Prop :=
  decode 0x00000002 = .ok .hmacSha1 ∧
  (∀ s : State, s.params.wf → s.keyLen ≤ 64 → s.inLen ≤ s.params.inBufBytes →
    ∃ t, exec .hmacSha1 s = .next t ∧
      DigestIs t (hmac s.readKey.1 s.readKey.2.readIn.1) ∧ Output s t (hmac s.readKey.1 s.readKey.2.readIn.1) ∧
      t.outlen = 20 ∧ Success t false ∧ InputsKept s t ∧ TruncationKept s t ∧ CounterKept s t) ∧
  (∀ s : State, 64 < s.keyLen → ∃ t, exec .hmacSha1 s = .next t ∧ ErrorEnd s t 0x04 0) ∧
  (∀ s : State, s.keyLen ≤ 64 → s.params.inBufBytes < s.inLen →
    ∃ t, exec .hmacSha1 s = .next t ∧ ErrorEnd s t 0x05 0)

/-- R202: HOTP_GEN on every legal digit count, key and counter; BAD_DIGITS, then KEY_TOO_LONG. -/
def Obligations.HotpGenResult : Prop :=
  decode 0x00000003 = .ok .hotpGen ∧
  (∀ s : State, s.params.wf → DigitsLegal s → s.keyLen ≤ 64 →
    ∃ t, exec .hotpGen s = .next t ∧ DigestIs t (hmac s.readKey.1 (bytesBe64 s.counter)) ∧
      TruncationIs t (hmac s.readKey.1 (bytesBe64 s.counter)) s.cfgDigits ∧
      Output s t (decimal s.cfgDigits t.code.toNat) ∧ t.outlen.toNat = s.cfgDigits ∧ Success t false ∧
      InputsKept s t ∧ CounterKept s t) ∧
  (∀ s : State, ¬ DigitsLegal s → ∃ t, exec .hotpGen s = .next t ∧ ErrorEnd s t 0x02 0) ∧
  (∀ s : State, DigitsLegal s → 64 < s.keyLen → ∃ t, exec .hotpGen s = .next t ∧ ErrorEnd s t 0x04 0)

/-- R203: HOTP_TRUNC on every 20-byte input; BAD_DIGITS, then BAD_INLEN. -/
def Obligations.HotpTruncResult : Prop :=
  decode 0x00000004 = .ok .hotpTrunc ∧
  (∀ s : State, s.params.wf → DigitsLegal s → s.inLen = 20 →
    ∃ t, exec .hotpTrunc s = .next t ∧ TruncationIs t s.readIn.1 s.cfgDigits ∧
      Output s t (decimal s.cfgDigits t.code.toNat) ∧ t.outlen.toNat = s.cfgDigits ∧ Success t false ∧
      InputsKept s t ∧ DigestKept s t ∧ CounterKept s t) ∧
  (∀ s : State, ¬ DigitsLegal s → ∃ t, exec .hotpTrunc s = .next t ∧ ErrorEnd s t 0x02 0) ∧
  (∀ s : State, DigitsLegal s → s.inLen ≠ 20 → ∃ t, exec .hotpTrunc s = .next t ∧ ErrorEnd s t 0x05 0)

/-- R204, R199: TOTP_COUNTER on every time and nonzero step; BAD_TSTEP on a zero step. -/
def Obligations.TotpCounterResult : Prop :=
  decode 0x00000005 = .ok .totpCounter ∧
  (∀ s : State, s.tstep ≠ 0 →
    ∃ t, exec .totpCounter s = .next t ∧ t.counter.toNat = s.time.toNat / 1000 / s.tstep.toNat ∧ Output s t [] ∧
      Success t false ∧ InputsKept s t ∧ DigestKept s t ∧ TruncationKept s t) ∧
  (∀ s : State, s.tstep = 0 → ∃ t, exec .totpCounter s = .next t ∧ ErrorEnd s t 0x03 0)

/-- R205: TOTP_GEN on every legal configuration and key; BAD_DIGITS, then BAD_TSTEP, then KEY_TOO_LONG. -/
def Obligations.TotpGenResult : Prop :=
  decode 0x00000006 = .ok .totpGen ∧
  (∀ s : State, s.params.wf → DigitsLegal s → s.tstep ≠ 0 → s.keyLen ≤ 64 →
    ∃ t, exec .totpGen s = .next t ∧ t.counter.toNat = s.time.toNat / 1000 / s.tstep.toNat ∧
      DigestIs t (hmac s.readKey.1 (bytesBe64 t.counter)) ∧
      TruncationIs t (hmac s.readKey.1 (bytesBe64 t.counter)) s.cfgDigits ∧
      Output s t (decimal s.cfgDigits t.code.toNat) ∧ t.outlen.toNat = s.cfgDigits ∧ Success t false ∧
      InputsKept s t) ∧
  (∀ s : State, ¬ DigitsLegal s → ∃ t, exec .totpGen s = .next t ∧ ErrorEnd s t 0x02 0) ∧
  (∀ s : State, DigitsLegal s → s.tstep = 0 → ∃ t, exec .totpGen s = .next t ∧ ErrorEnd s t 0x03 0) ∧
  (∀ s : State, DigitsLegal s → s.tstep ≠ 0 → 64 < s.keyLen →
    ∃ t, exec .totpGen s = .next t ∧ ErrorEnd s t 0x04 0)

/-- R206, R200: TOTP_VERIFY: MATCH says whether some counter of the window, modulo 2^64, has the padded candidate as
its code; a miss is no error; BAD_DIGITS, then BAD_TSTEP, then KEY_TOO_LONG, then BAD_INLEN. -/
def Obligations.TotpVerifyResult : Prop :=
  decode 0x00000007 = .ok .totpVerify ∧
  (∀ s : State, s.params.wf → DigitsLegal s → s.tstep ≠ 0 → s.keyLen ≤ 64 → s.inLen ≤ s.params.inBufBytes →
    ∃ t m, exec .totpVerify s = .next t ∧ t.counter.toNat = s.time.toNat / 1000 / s.tstep.toNat ∧ Output s t [] ∧
      Success t m ∧ InputsKept s t ∧ DigestKept s t ∧ TruncationKept s t ∧
      (m = true ↔ ∃ i, i ≤ 2 * s.cfgWindow ∧
        decimal s.cfgDigits (hotp s.readKey.1
            (bytesBe64 (t.counter - BitVec.ofNat 64 s.cfgWindow + BitVec.ofNat 64 i)) s.cfgDigits).tr.code.toNat =
          List.replicate (s.cfgDigits - s.readKey.2.readIn.1.length) 0x30 ++ s.readKey.2.readIn.1)) ∧
  (∀ s : State, ¬ DigitsLegal s → ∃ t, exec .totpVerify s = .next t ∧ ErrorEnd s t 0x02 0) ∧
  (∀ s : State, DigitsLegal s → s.tstep = 0 → ∃ t, exec .totpVerify s = .next t ∧ ErrorEnd s t 0x03 0) ∧
  (∀ s : State, DigitsLegal s → s.tstep ≠ 0 → 64 < s.keyLen →
    ∃ t, exec .totpVerify s = .next t ∧ ErrorEnd s t 0x04 0) ∧
  (∀ s : State, DigitsLegal s → s.tstep ≠ 0 → s.keyLen ≤ 64 → s.params.inBufBytes < s.inLen →
    ∃ t, exec .totpVerify s = .next t ∧ ErrorEnd s t 0x05 0)

/-- R250: B32_ENCODE on every input that fits; BAD_INLEN on every other. -/
def Obligations.B32EncodeResult : Prop :=
  decode 0x00000008 = .ok .b32Encode ∧
  (∀ s : State, s.params.wf → s.inLen ≤ s.params.inBufBytes →
    ∃ t, exec .b32Encode s = .next t ∧ Output s t (b32Encode s.readIn.1) ∧ t.outlen.toNat = 8 * ((s.inLen + 4) / 5) ∧
      Success t false ∧ InputsKept s t ∧ DigestKept s t ∧ TruncationKept s t ∧ CounterKept s t) ∧
  (∀ s : State, s.params.inBufBytes < s.inLen → ∃ t, exec .b32Encode s = .next t ∧ ErrorEnd s t 0x05 0)

/-- R251: B32_DECODE on every input that fits: the decoded bytes, or INVALID_CHAR at the first byte before the first
'=' that has no Base32 value; BAD_INLEN on every other input. -/
def Obligations.B32DecodeResult : Prop :=
  decode 0x00000009 = .ok .b32Decode ∧
  (∀ s : State, s.params.wf → s.inLen ≤ s.params.inBufBytes → ∀ D, b32Decode s.readIn.1 = .ok D →
    ∃ t, exec .b32Decode s = .next t ∧ Output s t D ∧ Success t false ∧ InputsKept s t ∧ DigestKept s t ∧
      TruncationKept s t ∧ CounterKept s t) ∧
  (∀ s : State, s.inLen ≤ s.params.inBufBytes → ∀ i, FirstInvalid s.readIn.1 i →
    ∃ t, exec .b32Decode s = .next t ∧ ErrorEnd s t 0x06 i) ∧
  (∀ s : State, s.params.inBufBytes < s.inLen → ∃ t, exec .b32Decode s = .next t ∧ ErrorEnd s t 0x05 0)

/-- R252: B32_DECODE_TEXT on every input that fits: as B32_DECODE, and DECODE_FAILURE, after decoding, where the
decoded bytes are not well-formed UTF-8; BAD_INLEN on every other input. -/
def Obligations.B32DecodeTextResult : Prop :=
  decode 0x0000000A = .ok .b32DecodeText ∧
  (∀ s : State, s.params.wf → s.inLen ≤ s.params.inBufBytes →
    ∀ D, b32Decode s.readIn.1 = .ok D → utf8FirstBad D = none →
    ∃ t, exec .b32DecodeText s = .next t ∧ Output s t D ∧ Success t false ∧ InputsKept s t ∧ DigestKept s t ∧
      TruncationKept s t ∧ CounterKept s t) ∧
  (∀ s : State, s.inLen ≤ s.params.inBufBytes →
    ∀ D j, b32Decode s.readIn.1 = .ok D → utf8FirstBad D = some j →
    ∃ t, exec .b32DecodeText s = .next t ∧ ErrorEnd s t 0x07 j) ∧
  (∀ s : State, s.inLen ≤ s.params.inBufBytes → ∀ i, FirstInvalid s.readIn.1 i →
    ∃ t, exec .b32DecodeText s = .next t ∧ ErrorEnd s t 0x06 i) ∧
  (∀ s : State, s.params.inBufBytes < s.inLen → ∃ t, exec .b32DecodeText s = .next t ∧ ErrorEnd s t 0x05 0)

/-! ## SHA-1 and HMAC -/

/-- R122, R123: the padded message is the message, 0x80, zero bytes, and the bit length as a 64-bit big-endian number;
it has `floor((L + 8) / 64) + 1` whole blocks. -/
def Obligations.PaddingShape : Prop :=
  ∀ M : List Byte, ∃ Z, Z ≤ 63 ∧ (M.length + 1 + Z) % 64 = 56 ∧
    pad M = M ++ [0x80] ++ List.replicate Z 0x00 ++
      (List.range 8).map (fun j => BitVec.ofNat 8 ((8 * M.length) % 2 ^ 64 / 256 ^ (7 - j))) ∧
    (pad M).length = 64 * ((M.length + 8) / 64 + 1)

/-- R124, R125: the message schedule of a block. -/
def Obligations.ScheduleRecurrence : Prop :=
  ∀ B : List Byte, B.length = 64 → (schedule B).length = 80 ∧
    (∀ t, t < 16 → ∃ b0 b1 b2 b3, B[4 * t]? = some b0 ∧ B[4 * t + 1]? = some b1 ∧ B[4 * t + 2]? = some b2 ∧
      B[4 * t + 3]? = some b3 ∧ (schedule B)[t]? = some (b0 ++ b1 ++ b2 ++ b3)) ∧
    (∀ t, 16 ≤ t → t < 80 → ∃ w3 w8 w14 w16, (schedule B)[t - 3]? = some w3 ∧ (schedule B)[t - 8]? = some w8 ∧
      (schedule B)[t - 14]? = some w14 ∧ (schedule B)[t - 16]? = some w16 ∧
      (schedule B)[t]? = some ((w3 ^^^ w8 ^^^ w14 ^^^ w16).rotateLeft 1))

/-- R126 to R130: compression is 80 rounds from the chaining words, each the update of R128, then the addition of
each chaining word. -/
def Obligations.CompressionIsEightyRounds : Prop :=
  ∀ (H : HashWords) (B : List Byte), ∃ v : Nat → HashWords, v 0 = H ∧
    (∀ t, t < 80 → ∀ w, (schedule B)[t]? = some w →
      let k : Word := if t < 20 then 0x5A827999 else if t < 40 then 0x6ED9EBA1 else if t < 60 then 0x8F1BBCDC
        else 0xCA62C1D6
      let b := (v t).h1
      let c := (v t).h2
      let d := (v t).h3
      let f : Word := if t < 20 then (b &&& c) ||| (~~~b &&& d)
        else if 40 ≤ t ∧ t < 60 then (b &&& c) ||| (b &&& d) ||| (c &&& d) else b ^^^ c ^^^ d
      v (t + 1) = ⟨(v t).h0.rotateLeft 5 + f + (v t).h4 + w + k, (v t).h0, (v t).h1.rotateLeft 30, (v t).h2, (v t).h3⟩) ∧
    compress H B = ⟨H.h0 + (v 80).h0, H.h1 + (v 80).h1, H.h2 + (v 80).h2, H.h3 + (v 80).h3, H.h4 + (v 80).h4⟩

/-- R120, R121, R132: the digest of a message is always 20 bytes, the big-endian words of the chaining value that
starts from the initial constants and takes the padded message's blocks in order. -/
def Obligations.DigestChainsTheBlocks : Prop :=
  ∀ M : List Byte, ∃ H : Nat → HashWords, H 0 = ⟨0x67452301, 0xEFCDAB89, 0x98BADCFE, 0x10325476, 0xC3D2E1F0⟩ ∧
    (∀ j, j < (M.length + 8) / 64 + 1 → H (j + 1) = compress (H j) (((pad M).drop (64 * j)).take 64)) ∧
    (sha1 M).length = 20 ∧
    let G := H ((M.length + 8) / 64 + 1)
    sha1 M = bytesBe32 G.h0 ++ bytesBe32 G.h1 ++ bytesBe32 G.h2 ++ bytesBe32 G.h3 ++ bytesBe32 G.h4

/-- R172 to R174: HMAC of a key of at most 64 bytes is the outer hash of the inner hash over the zero-padded key XORed
with the two pad constants, and the outer hash takes two blocks. -/
def Obligations.HmacIsTheNestedHash : Prop :=
  ∀ K M : List Byte, K.length ≤ 64 →
    let K0 := K ++ List.replicate (64 - K.length) 0x00
    let inner := sha1 (K0.map (fun b => b ^^^ 0x36) ++ M)
    K0.length = 64 ∧ hmac K M = sha1 (K0.map (fun b => b ^^^ 0x5C) ++ inner) ∧
    (K0.map (fun b => b ^^^ 0x5C) ++ inner).length = 84 ∧
    (pad (K0.map (fun b => b ^^^ 0x5C) ++ inner)).length = 128

/-- R175: zero bytes after a key, up to 64 bytes in all, do not change the result. -/
def Obligations.HmacIgnoresTrailingZeroKeyBytes : Prop :=
  ∀ K M n, K.length + n ≤ 64 → hmac (K ++ List.replicate n 0x00) M = hmac K M

/-! ## HOTP and TOTP -/

/-- R192 to R194: the ranges of a truncation and the document's formula; with ten digits the code is P. -/
def Obligations.TruncationFormulaAndRanges : Prop :=
  ∀ (HS : List Byte) (d : Nat), HS.length = 20 → 1 ≤ d → d ≤ 10 →
    let t := truncateHs HS d
    let o := t.offset.toNat
    o = (HS.getD 19 0).toNat % 16 ∧ o + 3 ≤ 18 ∧
    t.p = ((HS.getD o 0 &&& 0x7F).setWidth 32 <<< 24) ||| ((HS.getD (o + 1) 0).setWidth 32 <<< 16) |||
      ((HS.getD (o + 2) 0).setWidth 32 <<< 8) ||| (HS.getD (o + 3) 0).setWidth 32 ∧
    t.p.toNat ≤ 2 ^ 31 - 1 ∧ t.code.toNat = t.p.toNat % 10 ^ d ∧ t.code.toNat < 10 ^ d ∧ t.code.toNat < 2 ^ 31 ∧
    (d = 10 → t.code = t.p)

/-- R195: the code string has exactly `d` bytes, each an ASCII digit, byte `i` is the digit of `10^(d-1-i)`, and the
string read as a decimal number is the code. -/
def Obligations.CodeStringIsTheDecimalCode : Prop :=
  ∀ (d : Nat) (code : Word), code.toNat < 10 ^ d →
    (codeString d code).length = d ∧
    (∀ i, i < d → (codeString d code)[i]? = some (BitVec.ofNat 8 (0x30 + code.toNat / 10 ^ (d - 1 - i) % 10))) ∧
    (∀ b ∈ codeString d code, 0x30 ≤ b.toNat ∧ b.toNat ≤ 0x39) ∧
    (codeString d code).foldl (fun n b => 10 * n + (b.toNat - 0x30)) 0 = code.toNat

/-- R198: the TOTP counter equals `floor(ms / (1000 * step))` and fits a `u64`. -/
def Obligations.TotpCounterIsTheFloor : Prop :=
  ∀ (ms : DWord) (step : Word), step ≠ 0 →
    (totpCounter ms step).toNat = ms.toNat / 1000 / step.toNat ∧
    (totpCounter ms step).toNat = ms.toNat / (1000 * step.toNat) ∧
    (totpCounter ms step).toNat ≤ (2 ^ 64 - 1) / 1000

/-- R200: verification is the OR over the `2w+1` distinct counters of the window, modulo 2^64; the code of every
counter within `w` of `T` verifies, whether above or below; and with `w = 0` there is one attempt. -/
def Obligations.VerifyIsTheOrOverTheWindow : Prop :=
  ∀ (K cand : List Byte) (T : DWord) (w d : Nat), w ≤ 255 →
    (verify K cand T w d = true ↔ ∃ i, i ≤ 2 * w ∧
      codeString d (hotp K (bytesBe64 (T - BitVec.ofNat 64 w + BitVec.ofNat 64 i)) d).tr.code = padCandidate d cand) ∧
    (∀ i j, i ≤ 2 * w → j ≤ 2 * w →
      T - BitVec.ofNat 64 w + BitVec.ofNat 64 i = T - BitVec.ofNat 64 w + BitVec.ofNat 64 j → i = j) ∧
    (∀ δ, δ ≤ w → verify K (codeString d (hotp K (bytesBe64 (T + BitVec.ofNat 64 δ)) d).tr.code) T w d = true) ∧
    (∀ δ, δ ≤ w → verify K (codeString d (hotp K (bytesBe64 (T - BitVec.ofNat 64 δ)) d).tr.code) T w d = true) ∧
    (verify K cand T 0 d = true ↔ codeString d (hotp K (bytesBe64 T) d).tr.code = padCandidate d cand)

/-- R201: which candidates match a code: padding a shorter one with '0' on the left; never one that is longer, and
never one with a byte that is no digit; the empty candidate exactly the code 0. -/
def Obligations.CandidateForms : Prop :=
  ∀ (d : Nat) (cand : List Byte) (code : Word), code.toNat < 10 ^ d →
    (cand.length < d → padCandidate d cand = List.replicate (d - cand.length) 0x30 ++ cand) ∧
    (d ≤ cand.length → padCandidate d cand = cand) ∧
    (d < cand.length → codeString d code ≠ padCandidate d cand) ∧
    ((∃ b ∈ cand, b.toNat < 0x30 ∨ 0x39 < b.toNat) → codeString d code ≠ padCandidate d cand) ∧
    (codeString d code = padCandidate d [] ↔ code = 0) ∧
    (∀ n rest, codeString d code = List.replicate n 0x30 ++ rest → codeString d code = padCandidate d rest)

/-! ## Base32 -/

/-- R243, R244: the encoded length, its whole groups of eight, and the number of '=' by the length modulo 5; every
character before the padding is of the alphabet; the encoding of what fits IN fits OUT. -/
def Obligations.B32EncodeLengthAndPadding : Prop :=
  ∀ S : List Byte, ∃ syms, b32Encode S = syms ++ List.replicate
      (if S.length % 5 = 0 then 0 else if S.length % 5 = 1 then 6 else if S.length % 5 = 2 then 4
        else if S.length % 5 = 3 then 3 else 1) 0x3D ∧
    syms.length = (8 * S.length + 4) / 5 ∧ (∀ c ∈ syms, InAlphabet c) ∧
    (b32Encode S).length = 8 * ((S.length + 4) / 5) ∧
    (∀ p : Params, S.length ≤ p.inBufBytes → (b32Encode S).length ≤ p.outBufBytes) ∧
    (∀ p : Params, S.length = p.inBufBytes → (b32Encode S).length = p.outBufBytes)

/-- R242: encoding maps the input's bits, most significant first, five at a time through the alphabet, the tail
right-padded with zero bits, and then pads with fewer than eight '=' to whole groups of eight. Bit `k` of symbol `j`,
counted from the symbol's most significant of five, is bit `5j + k` of the stream. -/
def Obligations.B32EncodeWritesTheBitStream : Prop :=
  ∀ S : List Byte, ∃ syms n, b32Encode S = syms ++ List.replicate n 0x3D ∧ n < 8 ∧ (syms.length + n) % 8 = 0 ∧
    syms.length = (8 * S.length + 4) / 5 ∧
    ∀ j k, j < syms.length → k < 5 → ∃ c, syms[j]? = some c ∧ InAlphabet c ∧
      let v := if c.toNat ≤ 0x37 then c.toNat - 0x32 + 26 else c.toNat - 0x41
      v.testBit (4 - k) =
        if 5 * j + k < 8 * S.length then (S.getD ((5 * j + k) / 8) 0).getMsbD ((5 * j + k) % 8) else false

/-- R248: decoding an encoding gives the bytes back, for every byte sequence. -/
def Obligations.B32RoundTrip : Prop := ∀ S : List Byte, b32Decode (b32Encode S) = .ok S

/-- R248 on the engine: B32_ENCODE, the host copying OUT back into IN, B32_DECODE give back every input of at most
`5 * floor(IN_BUF_BYTES / 8)` bytes. -/
def Obligations.B32CommandRoundTrip : Prop :=
  ∀ s : State, s.params.wf → s.inLen ≤ 5 * (s.params.inBufBytes / 8) →
    (∀ j, j < s.inLen → (s.mem.read? (0x1000 + j)).isSome) →
    ∃ t v, exec .b32Encode s = .next t ∧
      exec .b32Decode
          { t with mem := t.mem.writeSpan 0x1000 (t.readSpan 0x2000 t.outlen.toNat).1, inlen := t.outlen } = .next v ∧
      Success v false ∧ v.outlen.toNat = s.inLen ∧
      ∀ j, j < s.inLen → v.mem.read? (0x2000 + j) = s.mem.read? (0x1000 + j)

/-- R246, R247: `k` symbols before the first '=' or the end decode to `floor(5k / 8)` bytes, whatever follows the
'='; byte `j` is made of the symbols' bits `8j..8j+7`, the first bit of a symbol being its most significant; and both
cases of a letter have one value. -/
def Obligations.B32DecodeReadsTheBitStream : Prop :=
  ∀ syms rest : List Byte, (∀ c ∈ syms, IsSymbol c) → (rest = [] ∨ ∃ r, rest = 0x3D :: r) →
    ∃ D, b32Decode (syms ++ rest) = .ok D ∧ D.length = 5 * syms.length / 8 ∧
      ∀ j k, j < D.length → k < 8 → ∀ (b c : Byte), D[j]? = some b → syms[(8 * j + k) / 5]? = some c →
        let v := if c.toNat ≤ 0x37 then c.toNat - 0x32 + 26 else if c.toNat ≤ 0x5A then c.toNat - 0x41
          else c.toNat - 0x61
        b.getMsbD k = v.testBit (4 - (8 * j + k) % 5)

/-- R245: decoding fails exactly at the first byte before the first '=' that has no Base32 value, and otherwise
succeeds. -/
def Obligations.B32DecodeFailsAtTheFirstInvalidByte : Prop :=
  ∀ S : List Byte, (∀ i, b32Decode S = .error i ↔ FirstInvalid S i) ∧
    ((∀ i, ¬ FirstInvalid S i) ↔ ∃ D, b32Decode S = .ok D)

/-- R249: text is valid exactly when it is a concatenation of the table's sequences; otherwise the index is where the
longest such beginning stops. -/
def Obligations.Utf8FirstBadFindsTheFirstIllFormedSequence : Prop :=
  ∀ S : List Byte,
    (utf8FirstBad S = none ↔ ∃ seqs : List (List Byte), (∀ q ∈ seqs, IsUtf8Seq q) ∧ S = seqs.flatten) ∧
    (∀ i, utf8FirstBad S = some i ↔ i < S.length ∧
      (∃ seqs : List (List Byte), (∀ q ∈ seqs, IsUtf8Seq q) ∧ S.take i = seqs.flatten) ∧
      ∀ n, ¬ IsUtf8Seq ((S.drop i).take n))

/-! ## Whole-machine properties -/

/-- Every step keeps the invariant: the parameters' constraints, the canonical memory with every byte in its buffer
and no OUT byte at or beyond OUTLEN, reserved bits 0, STATUS, ERRIDX and OUTLEN in agreement, results in range. -/
def Obligations.EveryStepKeepsTheInvariant : Prop := ∀ s t, s.Inv → step s = .next t → t.Inv

/-- The invariant holds after reset (with the parameter values of log entry 1). -/
def Obligations.ResetMeetsTheInvariant : Prop := State.reset.Inv

/-- R36, R44, R95: what a command writes depends only on the registers it reads, on KEY[0..KEYLEN) where it reads KEY
and on IN[0..INLEN) where it reads IN: two states that agree on these, and differ in anything else, give the same
results. Where an operand byte is unspecified, its draws are the same ones (R79): the numbering of draws is the model's
(log entries 2 and 3). -/
def Obligations.CommandsIgnoreWhatTheyDoNotRead : Prop :=
  ∀ i s s', s.params.wf → ReadsAgree i s s' → (OperandsWritten i s ∨ s'.draws = s.draws) →
    ∃ t u, exec i s = .next t ∧ exec i s' = .next u ∧ SameResults i s s' t u

/-- R71: running a command again with no operand changed gives the same state again. -/
def Obligations.RepeatedCommandChangesNothing : Prop :=
  ∀ i s t, s.params.wf → s.mem.wf → OperandsWritten i s → exec i s = .next t → exec i t = .next t

/-- R32, R331: TIME changes only by a host write to TIME_LO or TIME_HI or by a reset: no command and no passage of
steps advances it. -/
def Obligations.OnlyTheHostChangesTime : Prop :=
  ∀ s t, step s = .next t → t.time ≠ s.time →
    (∃ v rest, s.port = .access (.write (s.params.engineBase + 0x38) 4 v) :: rest ∨
      s.port = .access (.write (s.params.engineBase + 0x3C) 4 v) :: rest) ∨
    (∃ e rest, s.port = e :: rest ∧ (e = .resetAssert ∨ e = .resetRelease ∨ ∃ v, e = .cmdAbandoned v))

/-- A safe run: while power lasts, a queue of well-formed events is served to its end without a fault or a refusal
(the queue is the model's, log entry 4). -/
def Obligations.WellFormedEventsRunSafely : Prop :=
  ∀ s : State, s.phase ≠ .unpowered → (∀ e ∈ s.port, e.wf s.params = true ∧ e ≠ .powerLoss) →
    s.SafeRun s.port.length
end

