-- ==== Sys2Proof/Laws/Decode.lean ====
section
/-! SUPPORT. Small lemmas of the decoder and the encoder. -/

namespace Sys2Proof

theorem rsvdField_encode (i : Instr) : rsvdField (encode i) = 0 := by cases i <;> rfl

theorem opField_encode (i : Instr) : opField (encode i) = opcode i := by cases i <;> rfl

theorem instrOfOp_opcode (i : Instr) : instrOfOp (opcode i) = some i := by cases i <;> rfl

/-- A word is its two fields. -/
theorem rsvdField_append_opField (v : Word) : rsvdField v ++ opField v = v := by
  refine BitVec.eq_of_getLsbD_eq fun i hi => ?_
  simp only [rsvdField, opField, BitVec.getLsbD_append, BitVec.getLsbD_extractLsb']
  by_cases h : i < 8
  · simp [h]
  · have : i - 8 < 24 := by omega
    simp [h, this, show 8 + (i - 8) = i by omega]

/-- The lanes of a word give the word back. -/
theorem Machine.ofLanes_lanes (w : Word) (rest : List Byte) : Machine.ofLanes (Machine.lanes w ++ rest) = w := by
  refine BitVec.eq_of_getLsbD_eq fun i hi => ?_
  simp only [Machine.ofLanes, Machine.lanes, List.cons_append, List.nil_append, List.getD_cons_succ,
    List.getD_cons_zero, BitVec.getLsbD_append, BitVec.getLsbD_extractLsb']
  split
  · simp [*]
  · split
    · next h1 h2 => simp [h2, show 8 + (i - 8) = i by omega]
    · split
      · next h1 h2 h3 => simp [h3, show 16 + (i - 8 - 8) = i by omega]
      · next h1 h2 h3 => simp [show i - 8 - 8 - 8 < 8 by omega, show 24 + (i - 8 - 8 - 8) = i by omega]

end Sys2Proof
end

