-- ==== Sys2Proof/Laws/State.lean ====
section
/-! SUPPORT. One lemma per field per update of State, so that no later proof unfolds a record update. -/

namespace Sys2Proof.Machine

/-! ## `State.raiseError` -/

@[simp] theorem State.raiseError_status (s : State) (e : ErrorName) (i : Nat) :
    (s.raiseError e i).status = statusWord e.errCode false true := rfl
@[simp] theorem State.raiseError_cfg (s : State) (e : ErrorName) (i : Nat) : (s.raiseError e i).cfg = s.cfg := rfl
@[simp] theorem State.raiseError_tstep (s : State) (e : ErrorName) (i : Nat) :
    (s.raiseError e i).tstep = s.tstep := rfl
@[simp] theorem State.raiseError_keylen (s : State) (e : ErrorName) (i : Nat) :
    (s.raiseError e i).keylen = s.keylen := rfl
@[simp] theorem State.raiseError_inlen (s : State) (e : ErrorName) (i : Nat) :
    (s.raiseError e i).inlen = s.inlen := rfl
@[simp] theorem State.raiseError_outlen (s : State) (e : ErrorName) (i : Nat) : (s.raiseError e i).outlen = 0 := rfl
@[simp] theorem State.raiseError_erridx (s : State) (e : ErrorName) (i : Nat) :
    (s.raiseError e i).erridx = BitVec.ofNat 32 i := rfl
@[simp] theorem State.raiseError_code (s : State) (e : ErrorName) (i : Nat) : (s.raiseError e i).code = s.code := rfl
@[simp] theorem State.raiseError_trunc (s : State) (e : ErrorName) (i : Nat) :
    (s.raiseError e i).trunc = s.trunc := rfl
@[simp] theorem State.raiseError_dtoff (s : State) (e : ErrorName) (i : Nat) :
    (s.raiseError e i).dtoff = s.dtoff := rfl
@[simp] theorem State.raiseError_counter (s : State) (e : ErrorName) (i : Nat) :
    (s.raiseError e i).counter = s.counter := rfl
@[simp] theorem State.raiseError_time (s : State) (e : ErrorName) (i : Nat) : (s.raiseError e i).time = s.time := rfl
@[simp] theorem State.raiseError_digest (s : State) (e : ErrorName) (i : Nat) :
    (s.raiseError e i).digest = s.digest := rfl
@[simp] theorem State.raiseError_mem (s : State) (e : ErrorName) (i : Nat) :
    (s.raiseError e i).mem = s.mem.forget Config.outBase s.outEnd := rfl
@[simp] theorem State.raiseError_phase (s : State) (e : ErrorName) (i : Nat) :
    (s.raiseError e i).phase = s.phase := rfl
@[simp] theorem State.raiseError_params (s : State) (e : ErrorName) (i : Nat) :
    (s.raiseError e i).params = s.params := rfl
@[simp] theorem State.raiseError_draws (s : State) (e : ErrorName) (i : Nat) :
    (s.raiseError e i).draws = s.draws := rfl
@[simp] theorem State.raiseError_port (s : State) (e : ErrorName) (i : Nat) : (s.raiseError e i).port = s.port := rfl
@[simp] theorem State.raiseError_reply (s : State) (e : ErrorName) (i : Nat) :
    (s.raiseError e i).reply = s.reply := rfl

/-! ## `State.succeed` -/

@[simp] theorem State.succeed_status (s : State) (m : Bool) : (s.succeed m).status = statusWord 0x00 m false := rfl
@[simp] theorem State.succeed_cfg (s : State) (m : Bool) : (s.succeed m).cfg = s.cfg := rfl
@[simp] theorem State.succeed_tstep (s : State) (m : Bool) : (s.succeed m).tstep = s.tstep := rfl
@[simp] theorem State.succeed_keylen (s : State) (m : Bool) : (s.succeed m).keylen = s.keylen := rfl
@[simp] theorem State.succeed_inlen (s : State) (m : Bool) : (s.succeed m).inlen = s.inlen := rfl
@[simp] theorem State.succeed_outlen (s : State) (m : Bool) : (s.succeed m).outlen = s.outlen := rfl
@[simp] theorem State.succeed_erridx (s : State) (m : Bool) : (s.succeed m).erridx = 0 := rfl
@[simp] theorem State.succeed_code (s : State) (m : Bool) : (s.succeed m).code = s.code := rfl
@[simp] theorem State.succeed_trunc (s : State) (m : Bool) : (s.succeed m).trunc = s.trunc := rfl
@[simp] theorem State.succeed_dtoff (s : State) (m : Bool) : (s.succeed m).dtoff = s.dtoff := rfl
@[simp] theorem State.succeed_counter (s : State) (m : Bool) : (s.succeed m).counter = s.counter := rfl
@[simp] theorem State.succeed_time (s : State) (m : Bool) : (s.succeed m).time = s.time := rfl
@[simp] theorem State.succeed_digest (s : State) (m : Bool) : (s.succeed m).digest = s.digest := rfl
@[simp] theorem State.succeed_mem (s : State) (m : Bool) :
    (s.succeed m).mem = s.mem.forget (Config.outBase + s.outlen.toNat) s.outEnd := rfl
@[simp] theorem State.succeed_phase (s : State) (m : Bool) : (s.succeed m).phase = s.phase := rfl
@[simp] theorem State.succeed_params (s : State) (m : Bool) : (s.succeed m).params = s.params := rfl
@[simp] theorem State.succeed_draws (s : State) (m : Bool) : (s.succeed m).draws = s.draws := rfl
@[simp] theorem State.succeed_port (s : State) (m : Bool) : (s.succeed m).port = s.port := rfl
@[simp] theorem State.succeed_reply (s : State) (m : Bool) : (s.succeed m).reply = s.reply := rfl

/-! ## `State.putOut` -/

@[simp] theorem State.putOut_status (s : State) (bs : List Byte) : (s.putOut bs).status = s.status := rfl
@[simp] theorem State.putOut_cfg (s : State) (bs : List Byte) : (s.putOut bs).cfg = s.cfg := rfl
@[simp] theorem State.putOut_tstep (s : State) (bs : List Byte) : (s.putOut bs).tstep = s.tstep := rfl
@[simp] theorem State.putOut_keylen (s : State) (bs : List Byte) : (s.putOut bs).keylen = s.keylen := rfl
@[simp] theorem State.putOut_inlen (s : State) (bs : List Byte) : (s.putOut bs).inlen = s.inlen := rfl
@[simp] theorem State.putOut_outlen (s : State) (bs : List Byte) :
    (s.putOut bs).outlen = BitVec.ofNat 32 bs.length := rfl
@[simp] theorem State.putOut_erridx (s : State) (bs : List Byte) : (s.putOut bs).erridx = s.erridx := rfl
@[simp] theorem State.putOut_code (s : State) (bs : List Byte) : (s.putOut bs).code = s.code := rfl
@[simp] theorem State.putOut_trunc (s : State) (bs : List Byte) : (s.putOut bs).trunc = s.trunc := rfl
@[simp] theorem State.putOut_dtoff (s : State) (bs : List Byte) : (s.putOut bs).dtoff = s.dtoff := rfl
@[simp] theorem State.putOut_counter (s : State) (bs : List Byte) : (s.putOut bs).counter = s.counter := rfl
@[simp] theorem State.putOut_time (s : State) (bs : List Byte) : (s.putOut bs).time = s.time := rfl
@[simp] theorem State.putOut_digest (s : State) (bs : List Byte) : (s.putOut bs).digest = s.digest := rfl
@[simp] theorem State.putOut_mem (s : State) (bs : List Byte) :
    (s.putOut bs).mem = s.mem.writeSpan Config.outBase bs := rfl
@[simp] theorem State.putOut_phase (s : State) (bs : List Byte) : (s.putOut bs).phase = s.phase := rfl
@[simp] theorem State.putOut_params (s : State) (bs : List Byte) : (s.putOut bs).params = s.params := rfl
@[simp] theorem State.putOut_draws (s : State) (bs : List Byte) : (s.putOut bs).draws = s.draws := rfl
@[simp] theorem State.putOut_port (s : State) (bs : List Byte) : (s.putOut bs).port = s.port := rfl
@[simp] theorem State.putOut_reply (s : State) (bs : List Byte) : (s.putOut bs).reply = s.reply := rfl

/-! ## `State.putDigest` -/

@[simp] theorem State.putDigest_status (s : State) (dg : List Byte) : (s.putDigest dg).status = s.status := rfl
@[simp] theorem State.putDigest_cfg (s : State) (dg : List Byte) : (s.putDigest dg).cfg = s.cfg := rfl
@[simp] theorem State.putDigest_tstep (s : State) (dg : List Byte) : (s.putDigest dg).tstep = s.tstep := rfl
@[simp] theorem State.putDigest_keylen (s : State) (dg : List Byte) : (s.putDigest dg).keylen = s.keylen := rfl
@[simp] theorem State.putDigest_inlen (s : State) (dg : List Byte) : (s.putDigest dg).inlen = s.inlen := rfl
@[simp] theorem State.putDigest_outlen (s : State) (dg : List Byte) : (s.putDigest dg).outlen = s.outlen := rfl
@[simp] theorem State.putDigest_erridx (s : State) (dg : List Byte) : (s.putDigest dg).erridx = s.erridx := rfl
@[simp] theorem State.putDigest_code (s : State) (dg : List Byte) : (s.putDigest dg).code = s.code := rfl
@[simp] theorem State.putDigest_trunc (s : State) (dg : List Byte) : (s.putDigest dg).trunc = s.trunc := rfl
@[simp] theorem State.putDigest_dtoff (s : State) (dg : List Byte) : (s.putDigest dg).dtoff = s.dtoff := rfl
@[simp] theorem State.putDigest_counter (s : State) (dg : List Byte) : (s.putDigest dg).counter = s.counter := rfl
@[simp] theorem State.putDigest_time (s : State) (dg : List Byte) : (s.putDigest dg).time = s.time := rfl
@[simp] theorem State.putDigest_digest (s : State) (dg : List Byte) :
    (s.putDigest dg).digest = ⟨be32 (slice dg 0 4), be32 (slice dg 4 4), be32 (slice dg 8 4), be32 (slice dg 12 4),
      be32 (slice dg 16 4)⟩ := rfl
@[simp] theorem State.putDigest_mem (s : State) (dg : List Byte) : (s.putDigest dg).mem = s.mem := rfl
@[simp] theorem State.putDigest_phase (s : State) (dg : List Byte) : (s.putDigest dg).phase = s.phase := rfl
@[simp] theorem State.putDigest_params (s : State) (dg : List Byte) : (s.putDigest dg).params = s.params := rfl
@[simp] theorem State.putDigest_draws (s : State) (dg : List Byte) : (s.putDigest dg).draws = s.draws := rfl
@[simp] theorem State.putDigest_port (s : State) (dg : List Byte) : (s.putDigest dg).port = s.port := rfl
@[simp] theorem State.putDigest_reply (s : State) (dg : List Byte) : (s.putDigest dg).reply = s.reply := rfl

/-! ## `State.putTruncation` -/

@[simp] theorem State.putTruncation_status (s : State) (t : Truncation) : (s.putTruncation t).status = s.status := rfl
@[simp] theorem State.putTruncation_cfg (s : State) (t : Truncation) : (s.putTruncation t).cfg = s.cfg := rfl
@[simp] theorem State.putTruncation_tstep (s : State) (t : Truncation) : (s.putTruncation t).tstep = s.tstep := rfl
@[simp] theorem State.putTruncation_keylen (s : State) (t : Truncation) : (s.putTruncation t).keylen = s.keylen := rfl
@[simp] theorem State.putTruncation_inlen (s : State) (t : Truncation) : (s.putTruncation t).inlen = s.inlen := rfl
@[simp] theorem State.putTruncation_outlen (s : State) (t : Truncation) : (s.putTruncation t).outlen = s.outlen := rfl
@[simp] theorem State.putTruncation_erridx (s : State) (t : Truncation) : (s.putTruncation t).erridx = s.erridx := rfl
@[simp] theorem State.putTruncation_code (s : State) (t : Truncation) : (s.putTruncation t).code = t.code := rfl
@[simp] theorem State.putTruncation_trunc (s : State) (t : Truncation) : (s.putTruncation t).trunc = t.p := rfl
@[simp] theorem State.putTruncation_dtoff (s : State) (t : Truncation) : (s.putTruncation t).dtoff = t.offset := rfl
@[simp] theorem State.putTruncation_counter (s : State) (t : Truncation) :
    (s.putTruncation t).counter = s.counter := rfl
@[simp] theorem State.putTruncation_time (s : State) (t : Truncation) : (s.putTruncation t).time = s.time := rfl
@[simp] theorem State.putTruncation_digest (s : State) (t : Truncation) : (s.putTruncation t).digest = s.digest := rfl
@[simp] theorem State.putTruncation_mem (s : State) (t : Truncation) : (s.putTruncation t).mem = s.mem := rfl
@[simp] theorem State.putTruncation_phase (s : State) (t : Truncation) : (s.putTruncation t).phase = s.phase := rfl
@[simp] theorem State.putTruncation_params (s : State) (t : Truncation) : (s.putTruncation t).params = s.params := rfl
@[simp] theorem State.putTruncation_draws (s : State) (t : Truncation) : (s.putTruncation t).draws = s.draws := rfl
@[simp] theorem State.putTruncation_port (s : State) (t : Truncation) : (s.putTruncation t).port = s.port := rfl
@[simp] theorem State.putTruncation_reply (s : State) (t : Truncation) : (s.putTruncation t).reply = s.reply := rfl

/-! ## `State.putCounter` -/

@[simp] theorem State.putCounter_status (s : State) (c : DWord) : (s.putCounter c).status = s.status := rfl
@[simp] theorem State.putCounter_cfg (s : State) (c : DWord) : (s.putCounter c).cfg = s.cfg := rfl
@[simp] theorem State.putCounter_tstep (s : State) (c : DWord) : (s.putCounter c).tstep = s.tstep := rfl
@[simp] theorem State.putCounter_keylen (s : State) (c : DWord) : (s.putCounter c).keylen = s.keylen := rfl
@[simp] theorem State.putCounter_inlen (s : State) (c : DWord) : (s.putCounter c).inlen = s.inlen := rfl
@[simp] theorem State.putCounter_outlen (s : State) (c : DWord) : (s.putCounter c).outlen = s.outlen := rfl
@[simp] theorem State.putCounter_erridx (s : State) (c : DWord) : (s.putCounter c).erridx = s.erridx := rfl
@[simp] theorem State.putCounter_code (s : State) (c : DWord) : (s.putCounter c).code = s.code := rfl
@[simp] theorem State.putCounter_trunc (s : State) (c : DWord) : (s.putCounter c).trunc = s.trunc := rfl
@[simp] theorem State.putCounter_dtoff (s : State) (c : DWord) : (s.putCounter c).dtoff = s.dtoff := rfl
@[simp] theorem State.putCounter_counter (s : State) (c : DWord) : (s.putCounter c).counter = c := rfl
@[simp] theorem State.putCounter_time (s : State) (c : DWord) : (s.putCounter c).time = s.time := rfl
@[simp] theorem State.putCounter_digest (s : State) (c : DWord) : (s.putCounter c).digest = s.digest := rfl
@[simp] theorem State.putCounter_mem (s : State) (c : DWord) : (s.putCounter c).mem = s.mem := rfl
@[simp] theorem State.putCounter_phase (s : State) (c : DWord) : (s.putCounter c).phase = s.phase := rfl
@[simp] theorem State.putCounter_params (s : State) (c : DWord) : (s.putCounter c).params = s.params := rfl
@[simp] theorem State.putCounter_draws (s : State) (c : DWord) : (s.putCounter c).draws = s.draws := rfl
@[simp] theorem State.putCounter_port (s : State) (c : DWord) : (s.putCounter c).port = s.port := rfl
@[simp] theorem State.putCounter_reply (s : State) (c : DWord) : (s.putCounter c).reply = s.reply := rfl

/-! ## `State.answer` -/

@[simp] theorem State.answer_status (s : State) (r : Reply) : (s.answer r).status = s.status := rfl
@[simp] theorem State.answer_cfg (s : State) (r : Reply) : (s.answer r).cfg = s.cfg := rfl
@[simp] theorem State.answer_tstep (s : State) (r : Reply) : (s.answer r).tstep = s.tstep := rfl
@[simp] theorem State.answer_keylen (s : State) (r : Reply) : (s.answer r).keylen = s.keylen := rfl
@[simp] theorem State.answer_inlen (s : State) (r : Reply) : (s.answer r).inlen = s.inlen := rfl
@[simp] theorem State.answer_outlen (s : State) (r : Reply) : (s.answer r).outlen = s.outlen := rfl
@[simp] theorem State.answer_erridx (s : State) (r : Reply) : (s.answer r).erridx = s.erridx := rfl
@[simp] theorem State.answer_code (s : State) (r : Reply) : (s.answer r).code = s.code := rfl
@[simp] theorem State.answer_trunc (s : State) (r : Reply) : (s.answer r).trunc = s.trunc := rfl
@[simp] theorem State.answer_dtoff (s : State) (r : Reply) : (s.answer r).dtoff = s.dtoff := rfl
@[simp] theorem State.answer_counter (s : State) (r : Reply) : (s.answer r).counter = s.counter := rfl
@[simp] theorem State.answer_time (s : State) (r : Reply) : (s.answer r).time = s.time := rfl
@[simp] theorem State.answer_digest (s : State) (r : Reply) : (s.answer r).digest = s.digest := rfl
@[simp] theorem State.answer_mem (s : State) (r : Reply) : (s.answer r).mem = s.mem := rfl
@[simp] theorem State.answer_phase (s : State) (r : Reply) : (s.answer r).phase = s.phase := rfl
@[simp] theorem State.answer_params (s : State) (r : Reply) : (s.answer r).params = s.params := rfl
@[simp] theorem State.answer_draws (s : State) (r : Reply) : (s.answer r).draws = s.draws := rfl
@[simp] theorem State.answer_port (s : State) (r : Reply) : (s.answer r).port = s.port := rfl
@[simp] theorem State.answer_reply (s : State) (r : Reply) : (s.answer r).reply = r := rfl

/-! ## `State.answerFree` -/

@[simp] theorem State.answerFree_status (s : State) : (s.answerFree).status = s.status := rfl
@[simp] theorem State.answerFree_cfg (s : State) : (s.answerFree).cfg = s.cfg := rfl
@[simp] theorem State.answerFree_tstep (s : State) : (s.answerFree).tstep = s.tstep := rfl
@[simp] theorem State.answerFree_keylen (s : State) : (s.answerFree).keylen = s.keylen := rfl
@[simp] theorem State.answerFree_inlen (s : State) : (s.answerFree).inlen = s.inlen := rfl
@[simp] theorem State.answerFree_outlen (s : State) : (s.answerFree).outlen = s.outlen := rfl
@[simp] theorem State.answerFree_erridx (s : State) : (s.answerFree).erridx = s.erridx := rfl
@[simp] theorem State.answerFree_code (s : State) : (s.answerFree).code = s.code := rfl
@[simp] theorem State.answerFree_trunc (s : State) : (s.answerFree).trunc = s.trunc := rfl
@[simp] theorem State.answerFree_dtoff (s : State) : (s.answerFree).dtoff = s.dtoff := rfl
@[simp] theorem State.answerFree_counter (s : State) : (s.answerFree).counter = s.counter := rfl
@[simp] theorem State.answerFree_time (s : State) : (s.answerFree).time = s.time := rfl
@[simp] theorem State.answerFree_digest (s : State) : (s.answerFree).digest = s.digest := rfl
@[simp] theorem State.answerFree_mem (s : State) : (s.answerFree).mem = s.mem := rfl
@[simp] theorem State.answerFree_phase (s : State) : (s.answerFree).phase = s.phase := rfl
@[simp] theorem State.answerFree_params (s : State) : (s.answerFree).params = s.params := rfl
@[simp] theorem State.answerFree_draws (s : State) : (s.answerFree).draws = s.draws + 1 := rfl
@[simp] theorem State.answerFree_port (s : State) : (s.answerFree).port = s.port := rfl
@[simp] theorem State.answerFree_reply (s : State) : (s.answerFree).reply = Config.freeReply s.draws := rfl

/-! ## `State.writeBuffer` -/

@[simp] theorem State.writeBuffer_status (s : State) (off n : Nat) (v : Word) :
    (s.writeBuffer off n v).status = s.status := rfl
@[simp] theorem State.writeBuffer_cfg (s : State) (off n : Nat) (v : Word) :
    (s.writeBuffer off n v).cfg = s.cfg := rfl
@[simp] theorem State.writeBuffer_tstep (s : State) (off n : Nat) (v : Word) :
    (s.writeBuffer off n v).tstep = s.tstep := rfl
@[simp] theorem State.writeBuffer_keylen (s : State) (off n : Nat) (v : Word) :
    (s.writeBuffer off n v).keylen = s.keylen := rfl
@[simp] theorem State.writeBuffer_inlen (s : State) (off n : Nat) (v : Word) :
    (s.writeBuffer off n v).inlen = s.inlen := rfl
@[simp] theorem State.writeBuffer_outlen (s : State) (off n : Nat) (v : Word) :
    (s.writeBuffer off n v).outlen = s.outlen := rfl
@[simp] theorem State.writeBuffer_erridx (s : State) (off n : Nat) (v : Word) :
    (s.writeBuffer off n v).erridx = s.erridx := rfl
@[simp] theorem State.writeBuffer_code (s : State) (off n : Nat) (v : Word) :
    (s.writeBuffer off n v).code = s.code := rfl
@[simp] theorem State.writeBuffer_trunc (s : State) (off n : Nat) (v : Word) :
    (s.writeBuffer off n v).trunc = s.trunc := rfl
@[simp] theorem State.writeBuffer_dtoff (s : State) (off n : Nat) (v : Word) :
    (s.writeBuffer off n v).dtoff = s.dtoff := rfl
@[simp] theorem State.writeBuffer_counter (s : State) (off n : Nat) (v : Word) :
    (s.writeBuffer off n v).counter = s.counter := rfl
@[simp] theorem State.writeBuffer_time (s : State) (off n : Nat) (v : Word) :
    (s.writeBuffer off n v).time = s.time := rfl
@[simp] theorem State.writeBuffer_digest (s : State) (off n : Nat) (v : Word) :
    (s.writeBuffer off n v).digest = s.digest := rfl
@[simp] theorem State.writeBuffer_mem (s : State) (off n : Nat) (v : Word) :
    (s.writeBuffer off n v).mem = s.mem.writeSpan off ((lanes v).take n) := rfl
@[simp] theorem State.writeBuffer_phase (s : State) (off n : Nat) (v : Word) :
    (s.writeBuffer off n v).phase = s.phase := rfl
@[simp] theorem State.writeBuffer_params (s : State) (off n : Nat) (v : Word) :
    (s.writeBuffer off n v).params = s.params := rfl
@[simp] theorem State.writeBuffer_draws (s : State) (off n : Nat) (v : Word) :
    (s.writeBuffer off n v).draws = s.draws := rfl
@[simp] theorem State.writeBuffer_port (s : State) (off n : Nat) (v : Word) :
    (s.writeBuffer off n v).port = s.port := rfl
@[simp] theorem State.writeBuffer_reply (s : State) (off n : Nat) (v : Word) :
    (s.writeBuffer off n v).reply = s.reply := rfl

/-! ## Reading bytes changes `draws` alone -/

theorem State.readByte_draws_only (s : State) (a : Nat) : ∃ d, (s.readByte a).2 = { s with draws := d } := by
  unfold State.readByte
  split
  · exact ⟨s.draws, rfl⟩
  · exact ⟨s.draws + 1, rfl⟩

theorem State.readSpan_draws_only (s : State) (a n : Nat) : ∃ d, (s.readSpan a n).2 = { s with draws := d } := by
  induction n generalizing s a with
  | zero => exact ⟨s.draws, rfl⟩
  | succ n ih =>
    obtain ⟨d, hd⟩ := s.readByte_draws_only a
    obtain ⟨d', hd'⟩ := ih (s.readByte a).2 (a + 1)
    exact ⟨d', by rw [State.readSpan, hd', hd]⟩

@[simp] theorem State.readByte_status (s : State) (a : Nat) : (s.readByte a).2.status = s.status := by
  obtain ⟨d, h⟩ := s.readByte_draws_only a; rw [h]
@[simp] theorem State.readByte_cfg (s : State) (a : Nat) : (s.readByte a).2.cfg = s.cfg := by
  obtain ⟨d, h⟩ := s.readByte_draws_only a; rw [h]
@[simp] theorem State.readByte_tstep (s : State) (a : Nat) : (s.readByte a).2.tstep = s.tstep := by
  obtain ⟨d, h⟩ := s.readByte_draws_only a; rw [h]
@[simp] theorem State.readByte_keylen (s : State) (a : Nat) : (s.readByte a).2.keylen = s.keylen := by
  obtain ⟨d, h⟩ := s.readByte_draws_only a; rw [h]
@[simp] theorem State.readByte_inlen (s : State) (a : Nat) : (s.readByte a).2.inlen = s.inlen := by
  obtain ⟨d, h⟩ := s.readByte_draws_only a; rw [h]
@[simp] theorem State.readByte_outlen (s : State) (a : Nat) : (s.readByte a).2.outlen = s.outlen := by
  obtain ⟨d, h⟩ := s.readByte_draws_only a; rw [h]
@[simp] theorem State.readByte_erridx (s : State) (a : Nat) : (s.readByte a).2.erridx = s.erridx := by
  obtain ⟨d, h⟩ := s.readByte_draws_only a; rw [h]
@[simp] theorem State.readByte_code (s : State) (a : Nat) : (s.readByte a).2.code = s.code := by
  obtain ⟨d, h⟩ := s.readByte_draws_only a; rw [h]
@[simp] theorem State.readByte_trunc (s : State) (a : Nat) : (s.readByte a).2.trunc = s.trunc := by
  obtain ⟨d, h⟩ := s.readByte_draws_only a; rw [h]
@[simp] theorem State.readByte_dtoff (s : State) (a : Nat) : (s.readByte a).2.dtoff = s.dtoff := by
  obtain ⟨d, h⟩ := s.readByte_draws_only a; rw [h]
@[simp] theorem State.readByte_counter (s : State) (a : Nat) : (s.readByte a).2.counter = s.counter := by
  obtain ⟨d, h⟩ := s.readByte_draws_only a; rw [h]
@[simp] theorem State.readByte_time (s : State) (a : Nat) : (s.readByte a).2.time = s.time := by
  obtain ⟨d, h⟩ := s.readByte_draws_only a; rw [h]
@[simp] theorem State.readByte_digest (s : State) (a : Nat) : (s.readByte a).2.digest = s.digest := by
  obtain ⟨d, h⟩ := s.readByte_draws_only a; rw [h]
@[simp] theorem State.readByte_mem (s : State) (a : Nat) : (s.readByte a).2.mem = s.mem := by
  obtain ⟨d, h⟩ := s.readByte_draws_only a; rw [h]
@[simp] theorem State.readByte_phase (s : State) (a : Nat) : (s.readByte a).2.phase = s.phase := by
  obtain ⟨d, h⟩ := s.readByte_draws_only a; rw [h]
@[simp] theorem State.readByte_params (s : State) (a : Nat) : (s.readByte a).2.params = s.params := by
  obtain ⟨d, h⟩ := s.readByte_draws_only a; rw [h]
@[simp] theorem State.readByte_port (s : State) (a : Nat) : (s.readByte a).2.port = s.port := by
  obtain ⟨d, h⟩ := s.readByte_draws_only a; rw [h]
@[simp] theorem State.readByte_reply (s : State) (a : Nat) : (s.readByte a).2.reply = s.reply := by
  obtain ⟨d, h⟩ := s.readByte_draws_only a; rw [h]

@[simp] theorem State.readSpan_status (s : State) (a n : Nat) : (s.readSpan a n).2.status = s.status := by
  obtain ⟨d, h⟩ := s.readSpan_draws_only a n; rw [h]
@[simp] theorem State.readSpan_cfg (s : State) (a n : Nat) : (s.readSpan a n).2.cfg = s.cfg := by
  obtain ⟨d, h⟩ := s.readSpan_draws_only a n; rw [h]
@[simp] theorem State.readSpan_tstep (s : State) (a n : Nat) : (s.readSpan a n).2.tstep = s.tstep := by
  obtain ⟨d, h⟩ := s.readSpan_draws_only a n; rw [h]
@[simp] theorem State.readSpan_keylen (s : State) (a n : Nat) : (s.readSpan a n).2.keylen = s.keylen := by
  obtain ⟨d, h⟩ := s.readSpan_draws_only a n; rw [h]
@[simp] theorem State.readSpan_inlen (s : State) (a n : Nat) : (s.readSpan a n).2.inlen = s.inlen := by
  obtain ⟨d, h⟩ := s.readSpan_draws_only a n; rw [h]
@[simp] theorem State.readSpan_outlen (s : State) (a n : Nat) : (s.readSpan a n).2.outlen = s.outlen := by
  obtain ⟨d, h⟩ := s.readSpan_draws_only a n; rw [h]
@[simp] theorem State.readSpan_erridx (s : State) (a n : Nat) : (s.readSpan a n).2.erridx = s.erridx := by
  obtain ⟨d, h⟩ := s.readSpan_draws_only a n; rw [h]
@[simp] theorem State.readSpan_code (s : State) (a n : Nat) : (s.readSpan a n).2.code = s.code := by
  obtain ⟨d, h⟩ := s.readSpan_draws_only a n; rw [h]
@[simp] theorem State.readSpan_trunc (s : State) (a n : Nat) : (s.readSpan a n).2.trunc = s.trunc := by
  obtain ⟨d, h⟩ := s.readSpan_draws_only a n; rw [h]
@[simp] theorem State.readSpan_dtoff (s : State) (a n : Nat) : (s.readSpan a n).2.dtoff = s.dtoff := by
  obtain ⟨d, h⟩ := s.readSpan_draws_only a n; rw [h]
@[simp] theorem State.readSpan_counter (s : State) (a n : Nat) : (s.readSpan a n).2.counter = s.counter := by
  obtain ⟨d, h⟩ := s.readSpan_draws_only a n; rw [h]
@[simp] theorem State.readSpan_time (s : State) (a n : Nat) : (s.readSpan a n).2.time = s.time := by
  obtain ⟨d, h⟩ := s.readSpan_draws_only a n; rw [h]
@[simp] theorem State.readSpan_digest (s : State) (a n : Nat) : (s.readSpan a n).2.digest = s.digest := by
  obtain ⟨d, h⟩ := s.readSpan_draws_only a n; rw [h]
@[simp] theorem State.readSpan_mem (s : State) (a n : Nat) : (s.readSpan a n).2.mem = s.mem := by
  obtain ⟨d, h⟩ := s.readSpan_draws_only a n; rw [h]
@[simp] theorem State.readSpan_phase (s : State) (a n : Nat) : (s.readSpan a n).2.phase = s.phase := by
  obtain ⟨d, h⟩ := s.readSpan_draws_only a n; rw [h]
@[simp] theorem State.readSpan_params (s : State) (a n : Nat) : (s.readSpan a n).2.params = s.params := by
  obtain ⟨d, h⟩ := s.readSpan_draws_only a n; rw [h]
@[simp] theorem State.readSpan_port (s : State) (a n : Nat) : (s.readSpan a n).2.port = s.port := by
  obtain ⟨d, h⟩ := s.readSpan_draws_only a n; rw [h]
@[simp] theorem State.readSpan_reply (s : State) (a n : Nat) : (s.readSpan a n).2.reply = s.reply := by
  obtain ⟨d, h⟩ := s.readSpan_draws_only a n; rw [h]

/-! ## `State.readKey` -/

@[simp] theorem State.readKey_status (s : State) : s.readKey.2.status = s.status := State.readSpan_status s _ _
@[simp] theorem State.readKey_cfg (s : State) : s.readKey.2.cfg = s.cfg := State.readSpan_cfg s _ _
@[simp] theorem State.readKey_tstep (s : State) : s.readKey.2.tstep = s.tstep := State.readSpan_tstep s _ _
@[simp] theorem State.readKey_keylen (s : State) : s.readKey.2.keylen = s.keylen := State.readSpan_keylen s _ _
@[simp] theorem State.readKey_inlen (s : State) : s.readKey.2.inlen = s.inlen := State.readSpan_inlen s _ _
@[simp] theorem State.readKey_outlen (s : State) : s.readKey.2.outlen = s.outlen := State.readSpan_outlen s _ _
@[simp] theorem State.readKey_erridx (s : State) : s.readKey.2.erridx = s.erridx := State.readSpan_erridx s _ _
@[simp] theorem State.readKey_code (s : State) : s.readKey.2.code = s.code := State.readSpan_code s _ _
@[simp] theorem State.readKey_trunc (s : State) : s.readKey.2.trunc = s.trunc := State.readSpan_trunc s _ _
@[simp] theorem State.readKey_dtoff (s : State) : s.readKey.2.dtoff = s.dtoff := State.readSpan_dtoff s _ _
@[simp] theorem State.readKey_counter (s : State) : s.readKey.2.counter = s.counter := State.readSpan_counter s _ _
@[simp] theorem State.readKey_time (s : State) : s.readKey.2.time = s.time := State.readSpan_time s _ _
@[simp] theorem State.readKey_digest (s : State) : s.readKey.2.digest = s.digest := State.readSpan_digest s _ _
@[simp] theorem State.readKey_mem (s : State) : s.readKey.2.mem = s.mem := State.readSpan_mem s _ _
@[simp] theorem State.readKey_phase (s : State) : s.readKey.2.phase = s.phase := State.readSpan_phase s _ _
@[simp] theorem State.readKey_params (s : State) : s.readKey.2.params = s.params := State.readSpan_params s _ _
@[simp] theorem State.readKey_port (s : State) : s.readKey.2.port = s.port := State.readSpan_port s _ _
@[simp] theorem State.readKey_reply (s : State) : s.readKey.2.reply = s.reply := State.readSpan_reply s _ _

/-! ## `State.readIn` -/

@[simp] theorem State.readIn_status (s : State) : s.readIn.2.status = s.status := State.readSpan_status s _ _
@[simp] theorem State.readIn_cfg (s : State) : s.readIn.2.cfg = s.cfg := State.readSpan_cfg s _ _
@[simp] theorem State.readIn_tstep (s : State) : s.readIn.2.tstep = s.tstep := State.readSpan_tstep s _ _
@[simp] theorem State.readIn_keylen (s : State) : s.readIn.2.keylen = s.keylen := State.readSpan_keylen s _ _
@[simp] theorem State.readIn_inlen (s : State) : s.readIn.2.inlen = s.inlen := State.readSpan_inlen s _ _
@[simp] theorem State.readIn_outlen (s : State) : s.readIn.2.outlen = s.outlen := State.readSpan_outlen s _ _
@[simp] theorem State.readIn_erridx (s : State) : s.readIn.2.erridx = s.erridx := State.readSpan_erridx s _ _
@[simp] theorem State.readIn_code (s : State) : s.readIn.2.code = s.code := State.readSpan_code s _ _
@[simp] theorem State.readIn_trunc (s : State) : s.readIn.2.trunc = s.trunc := State.readSpan_trunc s _ _
@[simp] theorem State.readIn_dtoff (s : State) : s.readIn.2.dtoff = s.dtoff := State.readSpan_dtoff s _ _
@[simp] theorem State.readIn_counter (s : State) : s.readIn.2.counter = s.counter := State.readSpan_counter s _ _
@[simp] theorem State.readIn_time (s : State) : s.readIn.2.time = s.time := State.readSpan_time s _ _
@[simp] theorem State.readIn_digest (s : State) : s.readIn.2.digest = s.digest := State.readSpan_digest s _ _
@[simp] theorem State.readIn_mem (s : State) : s.readIn.2.mem = s.mem := State.readSpan_mem s _ _
@[simp] theorem State.readIn_phase (s : State) : s.readIn.2.phase = s.phase := State.readSpan_phase s _ _
@[simp] theorem State.readIn_params (s : State) : s.readIn.2.params = s.params := State.readSpan_params s _ _
@[simp] theorem State.readIn_port (s : State) : s.readIn.2.port = s.port := State.readSpan_port s _ _
@[simp] theorem State.readIn_reply (s : State) : s.readIn.2.reply = s.reply := State.readSpan_reply s _ _

/-! ## What depends on unchanged fields only -/

@[simp] theorem State.outEnd_eq (s : State) : s.outEnd = Config.outBase + s.params.outBufBytes := rfl

end Sys2Proof.Machine
end

