-- ==== Sys2Proof/Laws/Memory.lean ====
section
/-! SUPPORT. The laws of the byte memory: read after write, and the canonical form that every operation keeps. -/

namespace Sys2Proof.Machine

/-! ## Read after write -/

@[simp] theorem Memory.read?_nil (a : Nat) : Memory.read? [] a = none := rfl

theorem Memory.read?_write (m : Memory) (a b : Nat) (v : Byte) :
    (m.write a v).read? b = if b = a then some v else m.read? b := by
  induction m with
  | nil => simp [Memory.write, Memory.read?]
  | cons c m ih =>
    obtain ⟨k, w⟩ := c
    by_cases h1 : a < k
    · simp only [Memory.write, h1, if_true, Memory.read?]
    · by_cases h2 : a = k
      · subst h2
        by_cases h3 : b = a <;> simp [Memory.write, Memory.read?, h3]
      · simp only [Memory.write, h1, h2, if_false, Memory.read?, ih]
        by_cases h3 : b = k
        · subst h3
          simp [Ne.symm h2]
        · simp [h3]

@[simp] theorem Memory.read?_write_self (m : Memory) (a : Nat) (v : Byte) : (m.write a v).read? a = some v := by
  simp [Memory.read?_write]

theorem Memory.read?_write_of_ne (m : Memory) {a b : Nat} (v : Byte) (h : b ≠ a) :
    (m.write a v).read? b = m.read? b := by
  simp [Memory.read?_write, h]

/-- Everything a span write can do to one byte. -/
theorem Memory.read?_writeSpan (m : Memory) (a : Nat) (bs : List Byte) (b : Nat) :
    (m.writeSpan a bs).read? b = if a ≤ b ∧ b < a + bs.length then bs[b - a]? else m.read? b := by
  induction bs generalizing m a with
  | nil => simp [Memory.writeSpan]
  | cons v bs ih =>
    simp only [Memory.writeSpan, ih, Memory.read?_write, List.length_cons]
    by_cases h : b = a
    · subst h
      simp
    · by_cases h' : a ≤ b ∧ b < a + (bs.length + 1)
      · have h1 : a + 1 ≤ b ∧ b < a + 1 + bs.length := by omega
        have h2 : b - a = (b - (a + 1)) + 1 := by omega
        rw [if_pos h1, if_pos h', h2, List.getElem?_cons_succ]
      · have h1 : ¬ (a + 1 ≤ b ∧ b < a + 1 + bs.length) := by omega
        rw [if_neg h1, if_neg h', if_neg h]

/-- Everything forgetting a range can do to one byte. -/
theorem Memory.read?_forget (m : Memory) (lo hi a : Nat) :
    (m.forget lo hi).read? a = if lo ≤ a ∧ a < hi then none else m.read? a := by
  induction m with
  | nil => simp [Memory.forget]
  | cons c m ih =>
    obtain ⟨k, v⟩ := c
    have ih' : Memory.read? (List.filter (fun c => decide (c.1 < lo) || decide (hi ≤ c.1)) m) a =
        if lo ≤ a ∧ a < hi then none else Memory.read? m a := ih
    unfold Memory.forget
    by_cases hk : k < lo ∨ hi ≤ k
    · rw [List.filter_cons_of_pos (by simpa using hk)]
      by_cases h : a = k
      · subst h
        have : ¬ (lo ≤ a ∧ a < hi) := by omega
        simp [Memory.read?, this]
      · simp [Memory.read?, h, ih']
    · rw [List.filter_cons_of_neg (by simpa using hk), ih']
      by_cases h : a = k
      · subst h
        have : lo ≤ a ∧ a < hi := by omega
        simp [this]
      · simp [Memory.read?, h]

/-- A byte has a value only where it is listed. -/
theorem Memory.mem_of_read? {m : Memory} {a : Nat} {v : Byte} (h : m.read? a = some v) : (a, v) ∈ m := by
  induction m with
  | nil => simp at h
  | cons c m ih =>
    obtain ⟨k, w⟩ := c
    by_cases hk : a = k
    · subst hk
      simp [Memory.read?] at h
      simp [h]
    · simp [Memory.read?, hk] at h
      exact List.mem_cons_of_mem _ (ih h)

/-! ## What is listed after an operation -/

theorem Memory.mem_write {m : Memory} {a : Nat} {v : Byte} {c : Host.Cell} (h : c ∈ m.write a v) :
    c = (a, v) ∨ c ∈ m := by
  induction m with
  | nil => simpa [Memory.write] using h
  | cons d m ih =>
    obtain ⟨k, w⟩ := d
    simp only [Memory.write] at h
    split at h
    · simpa using h
    · split at h
      · rcases List.mem_cons.mp h with h | h
        · exact .inl h
        · exact .inr (List.mem_cons_of_mem _ h)
      · rcases List.mem_cons.mp h with h | h
        · exact .inr (h ▸ List.mem_cons_self)
        · exact (ih h).imp id (List.mem_cons_of_mem _)

theorem Memory.mem_writeSpan {m : Memory} {a : Nat} {bs : List Byte} {c : Host.Cell} (h : c ∈ m.writeSpan a bs) :
    (a ≤ c.1 ∧ c.1 < a + bs.length) ∨ c ∈ m := by
  induction bs generalizing m a with
  | nil => exact .inr h
  | cons v bs ih =>
    rcases ih h with h' | h'
    · exact .inl (by simp only [List.length_cons]; omega)
    · rcases Memory.mem_write h' with rfl | h''
      · exact .inl (by simp)
      · exact .inr h''

theorem Memory.mem_forget {m : Memory} {lo hi : Nat} {c : Host.Cell} :
    c ∈ m.forget lo hi ↔ c ∈ m ∧ (c.1 < lo ∨ hi ≤ c.1) := by
  simp [Memory.forget]

/-! ## The canonical form -/

theorem Memory.wf_nil : Memory.wf [] := List.Pairwise.nil

theorem Memory.wf_write {m : Memory} (a : Nat) (v : Byte) (h : m.wf) : (m.write a v).wf := by
  induction m with
  | nil => exact List.pairwise_singleton _ _
  | cons c m ih =>
    obtain ⟨k, w⟩ := c
    obtain ⟨hk, hm⟩ := List.pairwise_cons.mp h
    simp only [Memory.write]
    split
    · next hlt =>
      refine List.pairwise_cons.mpr ⟨fun d hd => ?_, h⟩
      rcases List.mem_cons.mp hd with rfl | hd
      · exact hlt
      · exact lt_trans hlt (hk d hd)
    · split
      · next heq =>
        subst heq
        exact List.pairwise_cons.mpr ⟨hk, hm⟩
      · refine List.pairwise_cons.mpr ⟨fun d hd => ?_, ih hm⟩
        rcases Memory.mem_write hd with rfl | hd
        · show k < a
          omega
        · exact hk d hd

theorem Memory.wf_writeSpan {m : Memory} (a : Nat) (bs : List Byte) (h : m.wf) : (m.writeSpan a bs).wf := by
  induction bs generalizing m a with
  | nil => exact h
  | cons v bs ih => exact ih _ (Memory.wf_write a v h)

theorem Memory.wf_forget {m : Memory} (lo hi : Nat) (h : m.wf) : (m.forget lo hi).wf := List.Pairwise.filter _ h

/-- In canonical form, a byte is listed exactly where it has a value. -/
theorem Memory.read?_eq_some_iff {m : Memory} (h : m.wf) (a : Nat) (v : Byte) :
    m.read? a = some v ↔ (a, v) ∈ m := by
  refine ⟨Memory.mem_of_read?, fun hm => ?_⟩
  induction m with
  | nil => simp at hm
  | cons c m ih =>
    obtain ⟨k, w⟩ := c
    obtain ⟨hk, hm'⟩ := List.pairwise_cons.mp h
    rcases List.mem_cons.mp hm with hc | hc
    · cases hc
      simp [Memory.read?]
    · have : k < a := hk _ hc
      simp [Memory.read?, Nat.ne_of_gt this, ih hm' hc]

/-- Memories in canonical form that read alike are equal. -/
theorem Memory.ext {m m' : Memory} (h : m.wf) (h' : m'.wf) (hr : ∀ a, m.read? a = m'.read? a) : m = m' := by
  have nd : ∀ {m : Memory}, m.wf → m.Nodup := fun hm =>
    hm.imp fun hlt heq => absurd hlt (by rw [heq]; exact lt_irrefl _)
  have hp : List.Perm m m' := (List.perm_ext_iff_of_nodup (nd h) (nd h')).mpr fun c => by
    rw [← Memory.read?_eq_some_iff h c.1 c.2, ← Memory.read?_eq_some_iff h' c.1 c.2, hr]
  exact hp.eq_of_pairwise (fun a b _ _ hab hba => absurd (lt_trans hab hba) (lt_irrefl _)) h h'

theorem State.reset_mem_wf : State.reset.mem.wf := Memory.wf_nil

end Sys2Proof.Machine
end

