-- ==== Sys2Proof/Laws/Ops.lean ====
section
/-! SUPPORT. What each shared operation can do, said once: the checks of a command, the two epilogues, operand
reads, register reads and writes. -/

namespace Sys2Proof.Machine

/-! ## Checked commands -/

/-- Everything a checked command can do. -/
theorem runChecked_cases (checks : List RegCheck) (s : State) (body : State → State) :
    (∃ c ∈ checks, c.fails s = true ∧ runChecked checks s body = .next (s.raiseError c.error 0)) ∨
      ((∀ c ∈ checks, c.fails s = false) ∧ runChecked checks s body = .next (body s)) := by
  unfold runChecked
  cases h : checks.find? fun c => c.fails s with
  | some c => exact .inl ⟨c, List.mem_of_find?_eq_some h, List.find?_some (p := fun c => RegCheck.fails c s) h, rfl⟩
  | none =>
    refine .inr ⟨fun c hc => ?_, rfl⟩
    simpa using List.find?_eq_none.mp h c hc

@[simp] theorem runChecked_nil (s : State) (body : State → State) : runChecked [] s body = .next (body s) := rfl

theorem runChecked_cons (c : RegCheck) (cs : List RegCheck) (s : State) (body : State → State) :
    runChecked (c :: cs) s body = if c.fails s then .next (s.raiseError c.error 0) else runChecked cs s body := by
  unfold runChecked
  cases h : c.fails s <;> simp [h]

theorem runChecked_ok {checks : List RegCheck} {s : State} (body : State → State)
    (h : ∀ c ∈ checks, c.fails s = false) : runChecked checks s body = .next (body s) := by
  rcases runChecked_cases checks s body with ⟨c, hc, hf, -⟩ | ⟨-, h'⟩
  · simp [h c hc] at hf
  · exact h'

/-- A checked command answers a next state, whatever the state. -/
theorem runChecked_next (checks : List RegCheck) (s : State) (body : State → State) :
    ∃ t, runChecked checks s body = .next t := by
  rcases runChecked_cases checks s body with ⟨c, -, -, h⟩ | ⟨-, h⟩
  · exact ⟨_, h⟩
  · exact ⟨_, h⟩

@[simp] theorem RegCheck.fails_digits (s : State) :
    RegCheck.fails .digits s = true ↔ s.cfgDigits = 0 ∨ 10 < s.cfgDigits := by
  simp [RegCheck.fails]

@[simp] theorem RegCheck.fails_tstep (s : State) : RegCheck.fails .tstep s = true ↔ s.tstep = 0 := by
  simp [RegCheck.fails]

@[simp] theorem RegCheck.fails_keyLong (s : State) : RegCheck.fails .keyLong s = true ↔ 64 < s.keyLen := decide_eq_true_iff

@[simp] theorem RegCheck.fails_inLong (s : State) :
    RegCheck.fails .inLong s = true ↔ s.params.inBufBytes < s.inLen := by
  simp [RegCheck.fails]

@[simp] theorem RegCheck.fails_inNot20 (s : State) : RegCheck.fails .inNot20 s = true ↔ s.inLen ≠ 20 := by
  simp [RegCheck.fails]

/-! ## STATUS -/

@[simp] theorem statusWord_err (c : Byte) (m e : Bool) : (statusWord c m e).getLsbD 0 = e := by
  cases m <;> cases e <;> revert c <;> decide +revert

@[simp] theorem statusWord_match (c : Byte) (m e : Bool) : (statusWord c m e).getLsbD 1 = m := by
  cases m <;> cases e <;> revert c <;> decide +revert

@[simp] theorem statusWord_code (c : Byte) (m e : Bool) : (statusWord c m e).extractLsb' 8 8 = c := by
  cases m <;> cases e <;> revert c <;> decide +revert

/-! ## Operand reads -/

theorem State.readByte_of_some {s : State} {a : Nat} {b : Byte} (h : s.mem.read? a = some b) :
    s.readByte a = (b, s) := by
  simp [State.readByte, h]

theorem State.readByte_of_none {s : State} {a : Nat} (h : s.mem.read? a = none) :
    s.readByte a = (Config.freeByte s.draws, { s with draws := s.draws + 1 }) := by
  simp [State.readByte, h]

@[simp] theorem State.readSpan_zero (s : State) (a : Nat) : s.readSpan a 0 = ([], s) := rfl

theorem State.readSpan_succ (s : State) (a n : Nat) :
    s.readSpan a (n + 1) =
      ((s.readByte a).1 :: ((s.readByte a).2.readSpan (a + 1) n).1, ((s.readByte a).2.readSpan (a + 1) n).2) := rfl

@[simp] theorem State.readSpan_length (s : State) (a n : Nat) : (s.readSpan a n).1.length = n := by
  induction n generalizing s a with
  | zero => rfl
  | succ n ih => simp [State.readSpan_succ, ih]

/-- A byte that has a value is read as that value. -/
theorem State.readSpan_getElem? {s : State} {a n i : Nat} {b : Byte} (hi : i < n)
    (h : s.mem.read? (a + i) = some b) : (s.readSpan a n).1[i]? = some b := by
  induction n generalizing s a i with
  | zero => omega
  | succ n ih =>
    rw [State.readSpan_succ]
    cases i with
    | zero =>
      rw [State.readByte_of_some (by simpa using h)]
      rfl
    | succ i =>
      rw [List.getElem?_cons_succ]
      exact ih (by omega) (by rw [State.readByte_mem, show a + 1 + i = a + (i + 1) by omega]; exact h)

/-- A span whose bytes all have values is read without a draw. -/
theorem State.readSpan_state_of_some {s : State} {a n : Nat} (h : ∀ i < n, (s.mem.read? (a + i)).isSome) :
    (s.readSpan a n).2 = s := by
  induction n generalizing a with
  | zero => rfl
  | succ n ih =>
    obtain ⟨b, hb⟩ := Option.isSome_iff_exists.mp (h 0 (by omega))
    rw [State.readSpan_succ, State.readByte_of_some (by simpa using hb)]
    exact ih fun i hi => by
      rw [show a + 1 + i = a + (i + 1) by omega]
      exact h (i + 1) (by omega)

/-- Two states that give every byte of a span the same value read it alike. -/
theorem State.readSpan_congr {s s' : State} {a n : Nat} (h : ∀ i < n, (s.mem.read? (a + i)).isSome)
    (heq : ∀ i < n, s'.mem.read? (a + i) = s.mem.read? (a + i)) : (s'.readSpan a n).1 = (s.readSpan a n).1 := by
  refine List.ext_getElem? fun i => ?_
  by_cases hi : i < n
  · obtain ⟨b, hb⟩ := Option.isSome_iff_exists.mp (h i hi)
    rw [State.readSpan_getElem? hi hb, State.readSpan_getElem? hi ((heq i hi).trans hb)]
  · rw [List.getElem?_eq_none (by simp; omega), List.getElem?_eq_none (by simp; omega)]

/-- Two states that agree on a span, unspecified bytes included, and have drawn as often read it alike and then have
drawn as often. -/
theorem State.readSpan_congr_draws {s s' : State} {a n : Nat} (hd : s'.draws = s.draws)
    (heq : ∀ i < n, s'.mem.read? (a + i) = s.mem.read? (a + i)) :
    (s'.readSpan a n).1 = (s.readSpan a n).1 ∧ (s'.readSpan a n).2.draws = (s.readSpan a n).2.draws := by
  induction n generalizing s s' a with
  | zero => exact ⟨rfl, hd⟩
  | succ n ih =>
    have h0 : s'.mem.read? a = s.mem.read? a := heq 0 (by omega)
    have hb : (s'.readByte a).1 = (s.readByte a).1 ∧ (s'.readByte a).2.draws = (s.readByte a).2.draws := by
      cases h : s.mem.read? a with
      | some b => simp [State.readByte_of_some h, State.readByte_of_some (h0.trans h), hd]
      | none => simp [State.readByte_of_none h, State.readByte_of_none (h0.trans h), hd]
    obtain ⟨h1, h2⟩ := ih (s := (s.readByte a).2) (s' := (s'.readByte a).2) (a := a + 1) hb.2 fun i hi => by
      rw [State.readByte_mem, State.readByte_mem, show a + 1 + i = a + (i + 1) by omega]
      exact heq (i + 1) (by omega)
    rw [State.readSpan_succ, State.readSpan_succ]
    exact ⟨by rw [hb.1, h1], h2⟩

/-! ## OUT after a successful command -/

/-- Everything `putOut` and the success epilogue do to one byte: OUT[0..len) holds the output, the rest of OUT is
unspecified, every other byte is as before. -/
theorem State.putOut_succeed_read? (s : State) (bs : List Byte) (m : Bool) (a : Nat)
    (hfit : bs.length ≤ s.params.outBufBytes) (hlt : bs.length < 2 ^ 32) :
    ((s.putOut bs).succeed m).mem.read? a =
      if Config.outBase ≤ a ∧ a < s.outEnd then bs[a - Config.outBase]? else s.mem.read? a := by
  have hl : (BitVec.ofNat 32 bs.length).toNat = bs.length := by
    rw [BitVec.toNat_ofNat, Nat.mod_eq_of_lt hlt]
  have he : (s.putOut bs).outEnd = s.outEnd := rfl
  have hfit' : Config.outBase + bs.length ≤ s.outEnd := Nat.add_le_add_left hfit _
  rw [State.succeed_mem, Memory.read?_forget, State.putOut_mem, Memory.read?_writeSpan, State.putOut_outlen, hl, he]
  by_cases h : Config.outBase ≤ a ∧ a < s.outEnd
  · rw [if_pos h]
    by_cases h' : a < Config.outBase + bs.length
    · rw [if_neg (by omega), if_pos ⟨h.1, h'⟩]
    · rw [if_pos ⟨by omega, h.2⟩, List.getElem?_eq_none (by omega)]
  · rw [if_neg h, if_neg (by omega), if_neg (by omega)]

/-- Everything the error epilogue does to one byte. -/
theorem State.raiseError_read? (s : State) (e : ErrorName) (i a : Nat) :
    (s.raiseError e i).mem.read? a =
      if Config.outBase ≤ a ∧ a < s.outEnd then none else s.mem.read? a := by
  simp only [State.raiseError_mem, Memory.read?_forget]

/-! ## Memory stays canonical -/

theorem State.raiseError_mem_wf {s : State} (e : ErrorName) (i : Nat) (h : s.mem.wf) : (s.raiseError e i).mem.wf :=
  Memory.wf_forget _ _ h

theorem State.succeed_mem_wf {s : State} (m : Bool) (h : s.mem.wf) : (s.succeed m).mem.wf := Memory.wf_forget _ _ h

theorem State.putOut_mem_wf {s : State} (bs : List Byte) (h : s.mem.wf) : (s.putOut bs).mem.wf :=
  Memory.wf_writeSpan _ _ h

theorem State.writeBuffer_mem_wf {s : State} (off n : Nat) (v : Word) (h : s.mem.wf) :
    (s.writeBuffer off n v).mem.wf := Memory.wf_writeSpan _ _ h

/-! ## Register writes -/

/-- A host write to a register leaves everything but the RW registers as it was. -/
theorem State.writeReg_frame (s : State) (r : HostReg) (v : Word) :
    (s.writeReg r v).mem = s.mem ∧ (s.writeReg r v).status = s.status ∧ (s.writeReg r v).outlen = s.outlen ∧
      (s.writeReg r v).erridx = s.erridx ∧ (s.writeReg r v).code = s.code ∧ (s.writeReg r v).trunc = s.trunc ∧
      (s.writeReg r v).dtoff = s.dtoff ∧ (s.writeReg r v).digest = s.digest ∧ (s.writeReg r v).params = s.params ∧
      (s.writeReg r v).phase = s.phase ∧ (s.writeReg r v).draws = s.draws ∧ (s.writeReg r v).port = s.port ∧
      (s.writeReg r v).reply = s.reply := by
  cases r <;> exact ⟨rfl, rfl, rfl, rfl, rfl, rfl, rfl, rfl, rfl, rfl, rfl, rfl, rfl⟩

/-! ## The reset state of the registers -/

/-- Whatever the state before, every register holds after a reset what it holds in State.reset. -/
@[simp] theorem State.resetRegs_rawReg (s : State) (ph : Phase) (r : HostReg) :
    (s.resetRegs ph).rawReg r = State.reset.rawReg r := by cases r <;> rfl

@[simp] theorem State.resetRegs_mem (s : State) (ph : Phase) : (s.resetRegs ph).mem = [] := rfl

@[simp] theorem State.answerFree_rawReg (s : State) (r : HostReg) : s.answerFree.rawReg r = s.rawReg r := by
  cases r <;> rfl

@[simp] theorem State.answer_rawReg (s : State) (a : Reply) (r : HostReg) : (s.answer a).rawReg r = s.rawReg r := by
  cases r <;> rfl

/-! ## Every command answers a next state -/

theorem exec_next (i : Instr) (s : State) : ∃ t, exec i s = .next t := by
  cases i <;> simp only [exec, execSha1Hash, execHmacSha1, execHotpGen, execHotpTrunc, execTotpCounter, execTotpGen,
    execTotpVerify, execB32Encode, execB32Decode, execB32DecodeText] <;> exact runChecked_next _ _ _

end Sys2Proof.Machine
end

