-- ==== Sys2Proof/Laws/PerInstr.lean ====
section
/-! SUPPORT. Statements made once per command. -/

namespace Sys2Proof.Laws.Encoding

/-- The command is well-formed, its word has RSVD zero, its OP names it alone, and the word fits a table row. -/
def Statement (i : Instr) : Prop :=
  i.wf = true ∧ rsvdField (encode i) = 0 ∧ (∀ op, instrOfOp op = some i → op = opcode i) ∧
    decodeTableWord 32 (encode i).toNat = some i

theorem instrOfOp_inj {op : Byte} {i : Instr} (h : instrOfOp op = some i) : op = opcode i := by
  revert h i
  revert op
  decide

theorem sha1Hash : Statement .sha1Hash := ⟨rfl, rfl, fun _ => instrOfOp_inj, by decide⟩
theorem hmacSha1 : Statement .hmacSha1 := ⟨rfl, rfl, fun _ => instrOfOp_inj, by decide⟩
theorem hotpGen : Statement .hotpGen := ⟨rfl, rfl, fun _ => instrOfOp_inj, by decide⟩
theorem hotpTrunc : Statement .hotpTrunc := ⟨rfl, rfl, fun _ => instrOfOp_inj, by decide⟩
theorem totpCounter : Statement .totpCounter := ⟨rfl, rfl, fun _ => instrOfOp_inj, by decide⟩
theorem totpGen : Statement .totpGen := ⟨rfl, rfl, fun _ => instrOfOp_inj, by decide⟩
theorem totpVerify : Statement .totpVerify := ⟨rfl, rfl, fun _ => instrOfOp_inj, by decide⟩
theorem b32Encode : Statement .b32Encode := ⟨rfl, rfl, fun _ => instrOfOp_inj, by decide⟩
theorem b32Decode : Statement .b32Decode := ⟨rfl, rfl, fun _ => instrOfOp_inj, by decide⟩
theorem b32DecodeText : Statement .b32DecodeText := ⟨rfl, rfl, fun _ => instrOfOp_inj, by decide⟩

end Sys2Proof.Laws.Encoding
end

