-- ==== Sys2Proof/Laws/Results.lean ====
section
/-! SUPPORT. The lengths and ranges of what the units compute, and the DIGEST registers' words: what the result of a
command needs of SHA-1, HMAC, truncation and the Base32 Codec. -/

namespace Sys2Proof.Machine

/-! ## Bytes and words -/

@[simp] theorem bytesBe32_length (w : Word) : (bytesBe32 w).length = 4 := rfl

@[simp] theorem bytesBe64_length (v : DWord) : (bytesBe64 v).length = 8 := rfl

@[simp] theorem be32_bytesBe32 (w : Word) : be32 (bytesBe32 w) = w := by
  refine BitVec.eq_of_getLsbD_eq fun i hi => ?_
  simp only [be32, bytesBe32, List.getD_cons_succ, List.getD_cons_zero, BitVec.getLsbD_append,
    BitVec.getLsbD_extractLsb']
  split
  · simp [*]
  · split
    · next h1 h2 => simp [h2, show 8 + (i - 8) = i by omega]
    · split
      · next h1 h2 h3 => simp [h3, show 16 + (i - 8 - 8) = i by omega]
      · next h1 h2 h3 => simp [show i - 8 - 8 - 8 < 8 by omega, show 24 + (i - 8 - 8 - 8) = i by omega]

/-! ## SHA-1 and HMAC -/

@[simp] theorem HashWords.bytes_length (H : HashWords) : H.bytes.length = 20 := rfl

@[simp] theorem sha1_length (M : List Byte) : (sha1 M).length = 20 := rfl

@[simp] theorem hmac_length (K M : List Byte) : (hmac K M).length = 20 := rfl

/-- DIGEST0..4 hold the words whose big-endian bytes were written (R70). -/
theorem State.putDigest_bytes (s : State) (H : HashWords) : (s.putDigest H.bytes).digest = H := by
  show HashWords.mk (be32 (bytesBe32 H.h0)) (be32 (bytesBe32 H.h1)) (be32 (bytesBe32 H.h2))
    (be32 (bytesBe32 H.h3)) (be32 (bytesBe32 H.h4)) = H
  simp

/-! ## HOTP -/

@[simp] theorem codeString_length (d : Nat) (code : Word) : (codeString d code).length = d := by simp [codeString]

theorem truncValue_lt (HS : List Byte) : (truncValue HS).toNat < 2 ^ 31 := by
  have h : (truncValue HS).toNat ≤ (0x7FFFFFFF : Word).toNat := by
    rw [truncValue, BitVec.toNat_and]
    exact Nat.and_le_right
  have h7 : (0x7FFFFFFF : Word).toNat = 2 ^ 31 - 1 := rfl
  omega

theorem codeValue_toNat (P : Word) (d : Nat) : (codeValue P d).toNat = P.toNat % 10 ^ d := by
  rw [codeValue, BitVec.toNat_ofNat]
  exact Nat.mod_eq_of_lt (lt_of_le_of_lt (Nat.mod_le _ _) P.isLt)

theorem totpCounter_toNat (ms : DWord) (step : Word) :
    (totpCounter ms step).toNat = ms.toNat / 1000 / step.toNat := by
  rw [totpCounter, BitVec.toNat_ofNat]
  exact Nat.mod_eq_of_lt (lt_of_le_of_lt ((Nat.div_le_self _ _).trans (Nat.div_le_self _ _)) ms.isLt)

/-! ## Base32 -/

/-- Decoding never gives more bytes than it reads symbols' bits. -/
theorem decodeFrom_length {i : Nat} {a : BitAcc} {S D : List Byte} (h : decodeFrom i a S = .ok D) :
    8 * D.length ≤ a.n + 5 * S.length := by
  induction S generalizing i a D with
  | nil =>
    cases h
    simp
  | cons c cs ih =>
    simp only [decodeFrom] at h
    split at h
    · cases h
      simp
    · split at h
      · cases h
      · next v hv =>
        split at h
        · next hn =>
          split at h
          · next out ho =>
            cases h
            have := ih ho
            simp only [BitAcc.pushSymbol] at hn this ⊢
            simp only [List.length_cons]
            omega
          · cases h
        · have := ih h
          simp only [BitAcc.pushSymbol] at this
          simp only [List.length_cons]
          omega

theorem b32Decode_length {S D : List Byte} (h : b32Decode S = .ok D) : 8 * D.length ≤ 5 * S.length := by
  simpa using decodeFrom_length h

/-- The symbols an accumulator gives: one per five bits; what is left is fewer than five bits. -/
theorem drainSymbols_length (fuel : Nat) (a : BitAcc) (hf : a.n ≤ 5 * fuel + 4) :
    (drainSymbols fuel a).1.length = a.n / 5 ∧ (drainSymbols fuel a).2.n = a.n % 5 := by
  induction fuel generalizing a with
  | zero => simp only [drainSymbols, List.length_nil]; omega
  | succ fuel ih =>
    simp only [drainSymbols]
    split
    · next h =>
      have := ih ⟨a.acc &&& BitVec.ofNat 12 (2 ^ (a.n - 5) - 1), a.n - 5⟩ (by show a.n - 5 ≤ _; omega)
      simp only [List.length_cons] at this ⊢
      omega
    · simp only [List.length_nil]; omega

theorem encodeSymbols_length (a : BitAcc) (S : List Byte) (ha : a.n < 5) :
    (encodeSymbols a S).length = (a.n + 8 * S.length + 4) / 5 := by
  induction S generalizing a with
  | nil =>
    simp only [encodeSymbols]
    split <;> simp <;> omega
  | cons b bs ih =>
    have h := drainSymbols_length (a.pushByte b).n (a.pushByte b) (by omega)
    have ih' := ih (drainSymbols (a.pushByte b).n (a.pushByte b)).2 (by omega)
    have hn : (a.pushByte b).n = a.n + 8 := rfl
    rw [encodeSymbols, List.length_append, ih', h.1, h.2, hn, List.length_cons]
    omega

theorem b32Encode_length (S : List Byte) : (b32Encode S).length = 8 * ((S.length + 4) / 5) := by
  have h := encodeSymbols_length ⟨0, 0⟩ S (by show 0 < 5; omega)
  simp only [b32Encode, padSymbols, List.length_append, List.length_replicate, h]
  omega

end Sys2Proof.Machine
end

