-- ==== Sys2Proof/Tests/Slice0.lean ====
section
/-! SUPPORT. Tests. Expected values are those of spec/95_test_vectors.md (V<n>, P<n>), of the worked examples in
the rules, or words written out bit by bit from spec/30_encoding.md R90 and R92. -/

namespace Sys2Proof.Tests

open Sys2Proof.Machine

/-! ## Helpers -/

/-- The key "12345678901234567890" of the vectors. -/
def k20 : List Byte :=
  [0x31, 0x32, 0x33, 0x34, 0x35, 0x36, 0x37, 0x38, 0x39, 0x30, 0x31, 0x32, 0x33, 0x34, 0x35, 0x36, 0x37, 0x38,
    0x39, 0x30]

/-- The reset state with an input. -/
def withIn (bs : List Byte) (s : State) : State :=
  { s with mem := s.mem.writeSpan Config.inBase bs, inlen := BitVec.ofNat 32 bs.length }

/-- The state with a key. -/
def withKey (bs : List Byte) (s : State) : State :=
  { s with mem := s.mem.writeSpan Config.keyBase bs, keylen := BitVec.ofNat 32 bs.length }

/-- A check of the next state an outcome holds; false of a fault and of a refusal. -/
def nextHas (o : Host.Outcome State Fault Refusal) (p : State → Bool) : Bool :=
  match o with
  | .next t => p t
  | .fault _ => false
  | .refused _ => false

/-- Whether an outcome is the given fault. -/
def faultIs (o : Host.Outcome State Fault Refusal) (f : Fault) : Bool :=
  match o with
  | .next _ => false
  | .fault g => g == f
  | .refused _ => false

/-- The next `n` OUT bytes of a state, unspecified ones as none. -/
def outBytes (s : State) (n : Nat) : List (Option Byte) :=
  (List.range n).map fun i => s.mem.read? (Config.outBase + i)

/-- Serve a list of events from a state. -/
def play (s : State) (es : List PortEvent) : Host.Outcome State Fault Refusal :=
  Host.Core.run core es.length { s with port := es }

/-! ## Well-formedness: each check refuses an ill-formed term -/

theorem test_params_wf : (⟨256, 0x8000⟩ : Params).wf := by decide
theorem test_params_not_multiple_of_4 : ¬ (⟨258, 0⟩ : Params).wf := by decide
theorem test_params_too_small : ¬ (⟨60, 0⟩ : Params).wf := by decide
theorem test_params_too_large : ¬ (⟨4100, 0⟩ : Params).wf := by decide
theorem test_params_base_unaligned : ¬ (⟨256, 0x1000⟩ : Params).wf := by decide
theorem test_access_wf : Access.wf ⟨256, 0x8000⟩ (.read 0x9003 1) = true := by decide
theorem test_access_byte_of_register : Access.wf ⟨256, 0⟩ (.write 0x008 1 1) = false := by decide
theorem test_access_misaligned : Access.wf ⟨256, 0⟩ (.write 0x1002 4 0) = false := by decide
theorem test_access_16_bit : Access.wf ⟨256, 0⟩ (.read 0x1000 2) = false := by decide
theorem test_access_outside : Access.wf ⟨256, 0x8000⟩ (.read 0xC000 4) = false := by decide
theorem test_event_wf : PortEvent.wf ⟨256, 0⟩ (.access (.read 0x004 1)) = false := by decide
theorem test_instr_wf : Instr.wf .totpVerify = true := by decide

/-! ## Decoding (R90 to R93, R99, V75): the words bit by bit -/

theorem test_decode_sha1Hash : decode 0b00000000000000000000000000000001#32 = .ok .sha1Hash := by decide
theorem test_decode_hmacSha1 : decode 0b00000000000000000000000000000010#32 = .ok .hmacSha1 := by decide
theorem test_decode_hotpGen : decode 0b00000000000000000000000000000011#32 = .ok .hotpGen := by decide
theorem test_decode_hotpTrunc : decode 0b00000000000000000000000000000100#32 = .ok .hotpTrunc := by decide
theorem test_decode_totpCounter : decode 0b00000000000000000000000000000101#32 = .ok .totpCounter := by decide
theorem test_decode_totpGen : decode 0b00000000000000000000000000000110#32 = .ok .totpGen := by decide
theorem test_decode_totpVerify : decode 0b00000000000000000000000000000111#32 = .ok .totpVerify := by decide
theorem test_decode_b32Encode : decode 0b00000000000000000000000000001000#32 = .ok .b32Encode := by decide
theorem test_decode_b32Decode : decode 0b00000000000000000000000000001001#32 = .ok .b32Decode := by decide
theorem test_decode_b32DecodeText : decode 0b00000000000000000000000000001010#32 = .ok .b32DecodeText := by decide
theorem test_decode_illegal :
    [0x00000000#32, 0x0000000B#32, 0x000000FF#32].map decode = List.replicate 3 (.error .unassignedOp) := by decide
theorem test_decode_reserved :
    [0x00000106#32, 0x80000001#32, 0xFFFFFFFF#32].map decode = List.replicate 3 (.error .reservedBits) := by decide
theorem test_decode_truncated : decodeBytes [0x01, 0x00, 0x00] = .error .truncated := by decide
theorem test_decodeTableWord : decodeTableWord 32 0x0000000A = some .b32DecodeText := by decide

/-! ## Reset and the host port (V78, V79) -/

theorem test_reset_reads :
    (State.reset.readReg .cfg, State.reset.readReg .tstep, State.reset.readReg .cmd) =
      (0x00000106, 0x0000001E, 0x00000000) := by decide
theorem test_write_cfg_reserved : (State.reset.writeReg .cfg 0xFFFFFFFF).readReg .cfg = 0x0000FF0F := by decide
theorem test_write_keylen_reserved : (State.reset.writeReg .keylen 0x00012345).readReg .keylen = 0x00000045 := by
  decide
theorem test_write_status_ignored : State.reset.writeReg .status 0xFFFFFFFF = State.reset := by decide
theorem test_write_counter_half :
    ({ State.reset with counter := 0xFFFFFFFF00000000 }.writeReg .counterLo 5).counter = 0xFFFFFFFF00000005 := by
  decide
theorem test_lanes_of_in_word :
    nextHas (play State.reset [sw ⟨256, 0⟩ 0x1000 0x00636261, lb ⟨256, 0⟩ 0x1001])
      (fun t => t.reply == .byte 0x62) = true := by decide +kernel
theorem test_byte_write_of_register_is_bus_error :
    faultIs (play State.reset [sb ⟨256, 0⟩ 0x008 1]) .busError = true := by decide
theorem test_misaligned_write_is_bus_error :
    faultIs (play State.reset [sw ⟨256, 0⟩ 0x1002 0]) .busError = true := by decide
theorem test_unassigned_reads_zero :
    nextHas (play State.reset [lw ⟨256, 0⟩ 0x02C]) (fun t => t.reply == .word 0) = true := by decide
theorem test_illegal_word_status :
    nextHas (play State.reset [sw ⟨256, 0⟩ 0x000 0x00000106]) (fun t => t.readReg .status == 0x00000101) = true := by
  decide
theorem test_reset_event_restores_cfg :
    nextHas (play { State.reset with cfg := 0 } [.resetAssert, .resetRelease])
      (fun t => t.readReg .cfg == 0x00000106) = true := by decide
theorem test_no_step_without_power : faultIs (play State.reset [.powerLoss, lw ⟨256, 0⟩ 0x004]) .noPower = true := by
  decide

/-! ## SHA1_HASH (V1, V2) -/

theorem test_sha1_empty_first_after_reset :
    nextHas (step (State.reset.withFetchWord 32 0x00000001)) (fun t =>
      t.digest == ⟨0xDA39A3EE, 0x5E6B4B0D, 0x3255BFEF, 0x95601890, 0xAFD80709⟩ && t.outlen == 20) = true := by
  decide +kernel
theorem test_sha1_abc_out :
    nextHas (exec .sha1Hash (withIn [0x61, 0x62, 0x63] State.reset)) (fun t =>
      outBytes t 21 == ([0xa9, 0x99, 0x3e, 0x36, 0x47, 0x06, 0x81, 0x6a, 0xba, 0x3e, 0x25, 0x71, 0x78, 0x50, 0xc2,
        0x6c, 0x9c, 0xd0, 0xd8, 0x9d].map some ++ [none])) = true := by decide +kernel

/-! ## HMAC_SHA1 (V12, V18) -/

theorem test_hmac_jefe :
    nextHas (exec .hmacSha1 (withKey [0x4a, 0x65, 0x66, 0x65] (withIn
      [0x77, 0x68, 0x61, 0x74, 0x20, 0x64, 0x6f, 0x20, 0x79, 0x61, 0x20, 0x77, 0x61, 0x6e, 0x74, 0x20, 0x66, 0x6f,
        0x72, 0x20, 0x6e, 0x6f, 0x74, 0x68, 0x69, 0x6e, 0x67, 0x3f] State.reset))) (fun t =>
      t.digest == ⟨0xEFFCDF6A, 0xE5EB2FA2, 0xD27416D5, 0xF184DF9C, 0x259A7C79⟩) = true := by decide +kernel
theorem test_hmac_key_error_before_length_error :
    nextHas (exec .hmacSha1 { State.reset with keylen := 255, inlen := 257 }) (fun t => t.status == 0x00000401) = true := by
  decide

/-! ## HOTP_GEN (V20, V27) -/

theorem test_hotp_counter_0 :
    nextHas (exec .hotpGen (withKey k20 State.reset)) (fun t =>
      t.digest == ⟨0xCC93CF18, 0x508D9493, 0x4C64B65D, 0x8BA7667F, 0xB7CDE4B0⟩ && t.dtoff == 0 &&
      t.trunc == 0x4C93CF18 && t.code == 755224 &&
      outBytes t 7 == ([0x37, 0x35, 0x35, 0x32, 0x32, 0x34].map some ++ [none])) = true := by decide +kernel
theorem test_hotp_digits_error_before_key_error :
    nextHas (exec .hotpGen { State.reset with cfg := 0x100, keylen := 65 }) (fun t => t.status == 0x00000201) = true := by
  decide

/-! ## HOTP_TRUNC (V24, V25, V26) -/

theorem test_trunc_rfc4226 :
    nextHas (exec .hotpTrunc (withIn [0x1f, 0x86, 0x98, 0x69, 0x0e, 0x02, 0xca, 0x16, 0x61, 0x85, 0x50, 0xef, 0x7f,
      0x19, 0xda, 0x8e, 0x94, 0x5b, 0x55, 0x5a] State.reset)) (fun t =>
      t.dtoff == 10 && t.trunc == 0x50EF7F19 && t.code == 872921 && t.digest == ⟨0, 0, 0, 0, 0⟩) = true := by
  decide +kernel
theorem test_trunc_length_error :
    nextHas (exec .hotpTrunc { State.reset with inlen := 21, code := 7 }) (fun t =>
      t.status == 0x00000501 && t.code == 7) = true := by decide

/-! ## TOTP_COUNTER (V36, V37) -/

theorem test_totp_counter_59999 :
    nextHas (exec .totpCounter { State.reset with time := 59999 }) (fun t => t.counter == 1 && t.outlen == 0) = true := by
  decide
theorem test_totp_counter_zero_step :
    nextHas (exec .totpCounter { State.reset with cfg := 0, tstep := 0, counter := 9 }) (fun t =>
      t.status == 0x00000301 && t.counter == 9) = true := by decide

/-! ## TOTP_GEN (V31) -/

theorem test_totp_gen_leading_zero :
    nextHas (exec .totpGen (withKey k20 { State.reset with cfg := 0x108, time := 1111111109000 })) (fun t =>
      t.counter == 37037036 && t.dtoff == 4 && t.code == 7081804 &&
      outBytes t 8 == [0x30, 0x37, 0x30, 0x38, 0x31, 0x38, 0x30, 0x34].map some) = true := by decide +kernel

/-! ## TOTP_VERIFY (V34, V38) -/

theorem test_verify_wraps_below_zero :
    nextHas (exec .totpVerify (withIn [0x36, 0x33, 0x30, 0x39, 0x34, 0x34, 0x35, 0x31]
      (withKey k20 { State.reset with cfg := 0x108 }))) (fun t => t.status == 0x00000002 && t.counter == 0) = true := by
  decide +kernel
theorem test_verify_miss_is_no_error :
    nextHas (exec .totpVerify (withIn [0x32, 0x36, 0x39, 0x36, 0x39, 0x34, 0x32, 0x39]
      (withKey k20 { State.reset with cfg := 0x108, time := 59000 }))) (fun t =>
      t.status == 0x00000000 && t.counter == 1) = true := by decide +kernel

/-! ## B32_ENCODE (V46, V49) -/

theorem test_b32_encode_foobar :
    nextHas (exec .b32Encode (withIn [0x66, 0x6f, 0x6f, 0x62, 0x61, 0x72] State.reset)) (fun t =>
      t.outlen == 16 && outBytes t 17 == ([0x4d, 0x5a, 0x58, 0x57, 0x36, 0x59, 0x54, 0x42, 0x4f, 0x49, 0x3d, 0x3d,
        0x3d, 0x3d, 0x3d, 0x3d].map some ++ [none])) = true := by decide +kernel
theorem test_b32_encode_too_long :
    nextHas (exec .b32Encode { State.reset with inlen := 257, outlen := 3 }) (fun t =>
      t.status == 0x00000501 && t.outlen == 0) = true := by decide

/-! ## B32_DECODE (V52, V58) -/

theorem test_b32_decode_mixed_case :
    nextHas (exec .b32Decode (withIn [0x4d, 0x7a, 0x58, 0x77, 0x36, 0x59, 0x74, 0x42, 0x6f, 0x49, 0x3d, 0x21]
      State.reset)) (fun t =>
      t.outlen == 6 && outBytes t 6 == [0x66, 0x6f, 0x6f, 0x62, 0x61, 0x72].map some) = true := by decide +kernel
theorem test_b32_decode_invalid_char :
    nextHas (exec .b32Decode (withIn [0x4d, 0x5a, 0x58, 0x57, 0x36, 0x21, 0x3d, 0x3d] State.reset)) (fun t =>
      t.status == 0x00000601 && t.erridx == 5 && t.outlen == 0) = true := by decide +kernel

/-! ## B32_DECODE_TEXT (V62, V64) -/

theorem test_b32_text_cafe :
    nextHas (exec .b32DecodeText (withIn [0x4d, 0x4e, 0x51, 0x57, 0x4e, 0x51, 0x35, 0x4a] State.reset)) (fun t =>
      t.status == 0 && outBytes t 6 == ([0x63, 0x61, 0x66, 0xc3, 0xa9].map some ++ [none])) = true := by
  decide +kernel
theorem test_b32_text_truncated_sequence :
    nextHas (exec .b32DecodeText (withIn [0x4d, 0x48, 0x52, 0x49, 0x45, 0x3d, 0x3d, 0x3d] State.reset)) (fun t =>
      t.status == 0x00000701 && t.erridx == 1) = true := by decide +kernel

/-! ## Text validity (V66 to V70) and the constants of the codec -/

theorem test_utf8_table :
    [[0xed, 0xa0, 0x80], [0xc0, 0xaf], [0xef, 0xbb, 0xbf, 0x41], [0xf4, 0x90, 0x80, 0x80], [0xf0, 0x9f, 0x98, 0x80],
      [0x00, 0x44, 0x32, 0x14, 0xc7]].map utf8FirstBad = [some 0, some 0, none, some 0, none, some 4] := by
  decide +kernel
theorem test_alphabet :
    (List.range 32).map (fun v => sym (BitVec.ofNat 5 v)) =
      [0x41, 0x42, 0x43, 0x44, 0x45, 0x46, 0x47, 0x48, 0x49, 0x4a, 0x4b, 0x4c, 0x4d, 0x4e, 0x4f, 0x50, 0x51, 0x52,
        0x53, 0x54, 0x55, 0x56, 0x57, 0x58, 0x59, 0x5a, 0x32, 0x33, 0x34, 0x35, 0x36, 0x37] := by decide +kernel

end Sys2Proof.Tests
end

