-- ==== Sys2Proof/Tests/Witnesses.lean ====
section
/-! SUPPORT. For every statement with hypotheses, a concrete state and operands that meet all of them together, one
theorem for each statement, with each clause at a boundary of its range. -/

namespace Sys2Proof.Tests

open Sys2Proof.Machine Sys2Proof.Statements

/-! ## Helpers -/

/-- The parameters of the witnesses. -/
def wp : Params := ⟨256, 0x4000⟩

/-- A running engine with these parameters, the events waiting. -/
def waiting (es : List PortEvent) : State := { State.reset with params := wp, port := es }

/-- The access is next, on a running engine. -/
theorem next_waiting (a : Access) (rest : List PortEvent) : Next (waiting (.access a :: rest)) a rest := ⟨rfl, rfl⟩

theorem wp_wf : wp.wf := by decide

/-- A read of four bytes of IN that have values is waiting. -/
def readWaiting : State :=
  { waiting [lw wp 0x1000] with mem := [(0x1000, 0x61), (0x1001, 0x62), (0x1002, 0x63), (0x1003, 0x64)] }

/-! ## Encoding and the step -/

theorem witness_decodeEncodeAgree :
    Instr.wf .b32DecodeText = true ∧ decodeBytes [0x0A, 0x00, 0x00, 0x00, 0x07] = .ok (.b32DecodeText, [0x07]) := by
  decide

theorem witness_stepRunsTheDecodedCommand :
    Next (waiting [sw wp 0x000 0x00000005]) (.write wp.engineBase 4 0x00000005) [] ∧
      decode 0x00000005 = .ok .totpCounter ∧ decode (BitVec.ofNat 32 5) = .ok .totpCounter :=
  ⟨next_waiting _ _, by decide, by decide⟩

theorem witness_illegalWord :
    (Next (waiting [sw wp 0x000 0x00000106]) (.write wp.engineBase 4 0x00000106) [] ∧
        (0x00000106 : Word).toNat / 256 ≠ 0) ∧
      (Next (waiting [sw wp 0x000 0x00000000]) (.write wp.engineBase 4 0x00000000) [] ∧
        (0x00000000 : Word).toNat % 256 = 0) ∧
      (Next (waiting [sw wp 0x000 0x0000000B]) (.write wp.engineBase 4 0x0000000B) [] ∧
        0x0A < (0x0000000B : Word).toNat % 256) :=
  ⟨⟨next_waiting _ _, by decide⟩, ⟨next_waiting _ _, by decide⟩, ⟨next_waiting _ _, by decide⟩⟩

/-! ## Reset, idling, power -/

theorem witness_resetInput :
    (waiting [.resetAssert]).port = .resetAssert :: [] ∧
      ((waiting [.cmdAbandoned 0x00000007]).phase ≠ .unpowered ∧
        (waiting [.cmdAbandoned 0x00000007]).port = .cmdAbandoned 0x00000007 :: []) ∧
      (({ waiting [.resetRelease] with phase := .inReset } : State).phase = .inReset ∧
        ({ waiting [.resetRelease] with phase := .inReset } : State).port = .resetRelease :: []) ∧
      (({ waiting [lw wp 0x3FFC] with phase := .inReset } : State).phase = .inReset ∧
        ({ waiting [lw wp 0x3FFC] with phase := .inReset } : State).port = .access (.read (0x4000 + 0x3FFC) 4) :: [] ∧
        0x3FFC < 0x4000) := by decide

theorem witness_idleAndPower :
    ((waiting []).port = [] ∧ (waiting []).phase ≠ .unpowered) ∧
      ((waiting [.powerLoss]).phase ≠ .unpowered ∧ (waiting [.powerLoss]).port = .powerLoss :: []) ∧
      (({ waiting [lw wp 0x004] with phase := .unpowered } : State).phase = .unpowered ∧
        ∀ rest, ({ waiting [lw wp 0x004] with phase := .unpowered } : State).port ≠ .resetAssert :: rest) :=
  ⟨by decide, by decide, rfl, fun _ h => by cases h⟩

/-! ## The host port -/

theorem witness_busError :
    (Next (waiting [lw wp 0x3FFC]) (.read (wp.engineBase + 0x3FFC) 4) [] ∧ 0x3FFC < 0x4000 ∧ 0x3FFC % 4 = 0) ∧
      (Next (waiting [lb wp 0x100]) (.read (wp.engineBase + 0x100) 1) [] ∧ 0x100 ≤ 0x100) ∧
      (Next (waiting [lb wp 0x0FF]) (.read (wp.engineBase + 0x0FF) 1) [] ∧ ¬ 0x100 ≤ 0x0FF) ∧
      (Next (waiting [sw wp 0x1002 0]) (.write (wp.engineBase + 0x1002) 4 0) [] ∧ ¬ 0x1002 % 4 = 0) :=
  ⟨⟨next_waiting _ _, by decide⟩, ⟨next_waiting _ _, by decide⟩, ⟨next_waiting _ _, by decide⟩,
    ⟨next_waiting _ _, by decide⟩⟩

theorem witness_read :
    readWaiting.params.wf ∧ Next readWaiting (.read (wp.engineBase + 0x1000) 4) [] ∧
      readWaiting.mem.read? 0x1000 = some 0x61 ∧ readWaiting.mem.read? 0x1003 = some 0x64 ∧
      readWaiting.mem.read? 0x1004 = none ∧ HostReg.offset .digest4 = 0x050 ∧ InOut readWaiting 0x219F :=
  ⟨wp_wf, ⟨rfl, rfl⟩, by decide, by decide, by decide, rfl, by show _ ∧ _; decide⟩

/-- A word of IN whose second and fourth byte have values and whose first and third have none. -/
theorem witness_readUnspecified :
    (waiting [lw wp 0x1000]).params.wf ∧
      Next { waiting [lw wp 0x1000] with mem := [(0x1001, 0x62), (0x1003, 0x64)] } (.read (wp.engineBase + 0x1000) 4) [] ∧
      Memory.read? [(0x1001, 0x62), (0x1003, 0x64)] (0x1000 + 0) = none ∧
      Memory.read? [(0x1001, 0x62), (0x1003, 0x64)] (0x1000 + 1) = some 0x62 ∧
      unspecifiedIn { waiting [] with mem := [(0x1001, 0x62), (0x1003, 0x64)] } 0x1000 2 = 1 ∧
      unspecifiedIn { waiting [] with mem := [(0x1001, 0x62), (0x1003, 0x64)] } 0x1000 4 = 2 :=
  ⟨wp_wf, ⟨rfl, rfl⟩, by decide, by decide, by decide, by decide⟩

theorem witness_unassigned :
    (waiting []).params.wf ∧
      (Next (waiting [lw wp 0x02C]) (.read (wp.engineBase + 0x02C) 4) [] ∧
        Next (waiting [lw wp 0x054]) (.read (wp.engineBase + 0x054) 4) [] ∧
        Next (waiting [lw wp 0x0FC]) (.read (wp.engineBase + 0x0FC) 4) []) ∧
      (Next (waiting [lb wp 0x140]) (.read (wp.engineBase + 0x140) 1) [] ∧
        Next (waiting [lb wp 0xFFF]) (.read (wp.engineBase + 0xFFF) 1) []) ∧
      (Next (waiting [sw wp 0x1100 1]) (.write (wp.engineBase + 0x1100) 4 1) [] ∧ 0x1000 + wp.inBufBytes = 0x1100) ∧
      (Next (waiting [sw wp 0x21A0 1]) (.write (wp.engineBase + 0x21A0) 4 1) [] ∧
        0x2000 + 8 * ((wp.inBufBytes + 4) / 5) = 0x21A0) :=
  ⟨wp_wf, ⟨next_waiting _ _, next_waiting _ _, next_waiting _ _⟩, ⟨next_waiting _ _, next_waiting _ _⟩,
    ⟨next_waiting _ _, by decide⟩, ⟨next_waiting _ _, by decide⟩⟩

theorem witness_outside :
    (Next (waiting [.access (.read 0x3FFF 1)]) (.read 0x3FFF 1) [] ∧ 0x3FFF < wp.engineBase) ∧
      (Next (waiting [.access (.write 0x8000 4 0)]) (.write 0x8000 4 0) [] ∧ wp.engineBase + 0x4000 ≤ 0x8000) :=
  ⟨⟨next_waiting _ _, by decide⟩, ⟨next_waiting _ _, by decide⟩⟩

theorem witness_readOnly :
    (¬ IsRw .status ∧ HostReg.status ≠ .cmd ∧
        Next (waiting [sw wp 0x004 0xFFFFFFFF]) (.write (wp.engineBase + HostReg.status.offset) 4 0xFFFFFFFF) []) ∧
      ((waiting []).params.wf ∧ InOut (waiting []) 0x2000 ∧ InOut (waiting []) 0x219F ∧
        Next (waiting [sw wp 0x2000 1]) (.write (wp.engineBase + 0x2000) 4 1) [] ∧
        Next (waiting [sb wp 0x219F 1]) (.write (wp.engineBase + 0x219F) 1 1) []) :=
  ⟨⟨fun h => h, by decide, next_waiting _ _⟩, wp_wf, by show _ ∧ _; decide, by show _ ∧ _; decide, next_waiting _ _,
    next_waiting _ _⟩

theorem witness_registerWrite :
    IsRw .cfg ∧ IsRw .timeHi ∧
      Next (waiting [sw wp 0x008 0xFFFFFFFF]) (.write (wp.engineBase + HostReg.cfg.offset) 4 0xFFFFFFFF) [] ∧
      Next (waiting [sw wp 0x03C 0x102]) (.write (wp.engineBase + HostReg.timeHi.offset) 4 0x102) [] :=
  ⟨trivial, trivial, next_waiting _ _, next_waiting _ _⟩

theorem witness_bufferWrite :
    (waiting []).params.wf ∧
      Next (waiting [sw wp 0x100 1]) (.write (wp.engineBase + 0x100) 4 1) [] ∧
      Next (waiting [sb wp 0x13F 1]) (.write (wp.engineBase + 0x13F) 1 1) [] ∧
      Next (waiting [sw wp 0x10FC 1]) (.write (wp.engineBase + 0x10FC) 4 1) [] ∧ 0x10FC < 0x1000 + wp.inBufBytes :=
  ⟨wp_wf, next_waiting _ _, next_waiting _ _, next_waiting _ _, by decide⟩

theorem witness_byteLane :
    readWaiting.params.wf ∧ (∀ k, k < 4 → (readWaiting.mem.read? (0x1000 + k)).isSome) ∧
      Next readWaiting (.read (wp.engineBase + 0x1000) 4) [] ∧
      nextHas (step readWaiting) (fun t => t.reply == .word 0x64636261) = true := by
  refine ⟨wp_wf, ?_, ⟨rfl, rfl⟩, by decide⟩
  intro k hk
  have h : k = 0 ∨ k = 1 ∨ k = 2 ∨ k = 3 := by omega
  rcases h with rfl | rfl | rfl | rfl <;> rfl

theorem witness_pseudoStatements :
    (waiting []).params.wf ∧ (waiting []).phase = .running ∧
      ((List.replicate 256 (0x61 : Byte)).length ≤ wp.inBufBytes ∧
        (waiting (setin wp (List.replicate 256 0x61))).port = setin wp (List.replicate 256 0x61) ++ []) ∧
      ((List.replicate 64 (0x0b : Byte)).length ≤ 64 ∧
        (waiting (setkey wp (List.replicate 64 0x0b))).port = setkey wp (List.replicate 64 0x0b) ++ []) ∧
      (waiting (setctr wp 5)).port = setctr wp 5 ++ [] ∧ (waiting (settime wp 59000)).port = settime wp 59000 ++ [] ∧
      (15 < 16 ∧ 255 < 256 ∧ (waiting (setcfg wp 15 255)).port = setcfg wp 15 255 ++ []) :=
  ⟨wp_wf, rfl, ⟨by rw [List.length_replicate]; decide, (List.append_nil _).symm⟩,
    ⟨by rw [List.length_replicate], (List.append_nil _).symm⟩, (List.append_nil _).symm, (List.append_nil _).symm,
    by decide, by decide, (List.append_nil _).symm⟩

theorem witness_operandRead :
    Memory.read? readWaiting.mem (0x1000 + 3) = some 0x64 ∧ Memory.read? readWaiting.mem (0x1000 + 4) = none := by
  decide

/-! ## Errors and frames of every command -/

theorem witness_firstFailingCheck :
    mayRaise .totpVerify .keyLong ∧ checkFails { waiting [] with keylen := 65, inlen := 257 } .keyLong ∧
      (∀ c', mayRaise .totpVerify c' → (checkCode c').toNat < (checkCode .keyLong).toNat →
        ¬ checkFails { waiting [] with keylen := 65, inlen := 257 } c') := by
  refine ⟨by simp [mayRaise], by show _ < _; decide, fun c' _ hlt => ?_⟩
  cases c' <;> simp only [checkFails] <;> first | decide | exact absurd hlt (by decide)

theorem witness_noFailingCheck :
    ∀ c, mayRaise .totpVerify c → ¬ checkFails { waiting [] with keylen := 64, inlen := 256 } c := by
  intro c h
  cases c <;> first | (simp only [checkFails]; decide) | simp [mayRaise] at h

theorem witness_commandsKeep :
    (waiting []).params.wf ∧
      nextHas (exec .b32Encode { waiting [] with inlen := 257 }) (fun t => t.errFlag) = true ∧
      nextHas (exec .b32Encode (waiting [])) (fun t => !t.errFlag) = true := ⟨wp_wf, by decide, by decide⟩

theorem witness_flags :
    nextHas (exec .b32Encode (waiting [])) (fun t => !t.errFlag && !t.matchFlag) = true := by decide

/-! ## The commands: hypotheses of each clause -/

theorem witness_sha1Hash :
    ((waiting []).params.wf ∧ ({ waiting [] with inlen := 256 } : State).inLen ≤ wp.inBufBytes) ∧
      wp.inBufBytes < ({ waiting [] with inlen := 257 } : State).inLen := ⟨⟨wp_wf, by decide⟩, by decide⟩

theorem witness_hmacSha1 :
    ((waiting []).params.wf ∧ ({ waiting [] with keylen := 64, inlen := 256 } : State).keyLen ≤ 64 ∧
        ({ waiting [] with keylen := 64, inlen := 256 } : State).inLen ≤ wp.inBufBytes) ∧
      64 < ({ waiting [] with keylen := 65 } : State).keyLen ∧
      (({ waiting [] with keylen := 64, inlen := 257 } : State).keyLen ≤ 64 ∧
        wp.inBufBytes < ({ waiting [] with keylen := 64, inlen := 257 } : State).inLen) :=
  ⟨⟨wp_wf, by decide, by decide⟩, by decide, by decide, by decide⟩

theorem digitsLegal_reset : DigitsLegal (waiting []) := by show _ ∧ _; decide

theorem witness_hotpGen :
    ((waiting []).params.wf ∧ DigitsLegal (waiting []) ∧ (waiting []).keyLen ≤ 64) ∧
      (¬ DigitsLegal { waiting [] with cfg := 0 } ∧ ¬ DigitsLegal { waiting [] with cfg := 11 }) ∧
      (DigitsLegal { waiting [] with keylen := 65, cfg := 10 } ∧
        64 < ({ waiting [] with keylen := 65, cfg := 10 } : State).keyLen) :=
  ⟨⟨wp_wf, digitsLegal_reset, by decide⟩, ⟨fun h => absurd h.1 (by decide), fun h => absurd h.2 (by decide)⟩,
    by show _ ∧ _; decide, by decide⟩

theorem witness_hotpTrunc :
    ((waiting []).params.wf ∧ DigitsLegal { waiting [] with inlen := 20 } ∧
        ({ waiting [] with inlen := 20 } : State).inLen = 20) ∧
      ¬ DigitsLegal { waiting [] with cfg := 0 } ∧
      (DigitsLegal { waiting [] with inlen := 21 } ∧ ({ waiting [] with inlen := 21 } : State).inLen ≠ 20) :=
  ⟨⟨wp_wf, by show _ ∧ _; decide, by decide⟩, fun h => absurd h.1 (by decide), by show _ ∧ _; decide, by decide⟩

theorem witness_totpCounter :
    (waiting []).tstep ≠ 0 ∧ ({ waiting [] with tstep := 0 } : State).tstep = 0 := by decide

theorem witness_totpGen :
    ((waiting []).params.wf ∧ DigitsLegal (waiting []) ∧ (waiting []).tstep ≠ 0 ∧ (waiting []).keyLen ≤ 64) ∧
      ¬ DigitsLegal { waiting [] with cfg := 0 } ∧
      (DigitsLegal { waiting [] with tstep := 0 } ∧ ({ waiting [] with tstep := 0 } : State).tstep = 0) ∧
      (DigitsLegal { waiting [] with keylen := 65 } ∧ ({ waiting [] with keylen := 65 } : State).tstep ≠ 0 ∧
        64 < ({ waiting [] with keylen := 65 } : State).keyLen) :=
  ⟨⟨wp_wf, digitsLegal_reset, by decide, by decide⟩, fun h => absurd h.1 (by decide),
    ⟨by show _ ∧ _; decide, by decide⟩, by show _ ∧ _; decide, by decide, by decide⟩

theorem witness_totpVerify :
    ((waiting []).params.wf ∧ DigitsLegal (waiting []) ∧ (waiting []).tstep ≠ 0 ∧ (waiting []).keyLen ≤ 64 ∧
        (waiting []).inLen ≤ wp.inBufBytes) ∧
      ¬ DigitsLegal { waiting [] with cfg := 0 } ∧
      (DigitsLegal { waiting [] with tstep := 0 } ∧ ({ waiting [] with tstep := 0 } : State).tstep = 0) ∧
      (DigitsLegal { waiting [] with keylen := 65 } ∧ ({ waiting [] with keylen := 65 } : State).tstep ≠ 0 ∧
        64 < ({ waiting [] with keylen := 65 } : State).keyLen) ∧
      (DigitsLegal { waiting [] with inlen := 257 } ∧ ({ waiting [] with inlen := 257 } : State).tstep ≠ 0 ∧
        ({ waiting [] with inlen := 257 } : State).keyLen ≤ 64 ∧
        wp.inBufBytes < ({ waiting [] with inlen := 257 } : State).inLen) :=
  ⟨⟨wp_wf, digitsLegal_reset, by decide, by decide, by decide⟩, fun h => absurd h.1 (by decide),
    ⟨by show _ ∧ _; decide, by decide⟩, ⟨by show _ ∧ _; decide, by decide, by decide⟩, by show _ ∧ _; decide,
    by decide, by decide, by decide⟩

theorem witness_b32Encode :
    ((waiting []).params.wf ∧ ({ waiting [] with inlen := 256 } : State).inLen ≤ wp.inBufBytes) ∧
      wp.inBufBytes < ({ waiting [] with inlen := 257 } : State).inLen := ⟨⟨wp_wf, by decide⟩, by decide⟩

/-- "MZ" decodes; in "MZ1" the byte at index 2 is invalid. -/
theorem witness_b32Decode :
    ((withIn [0x4d, 0x5a] (waiting [])).params.wf ∧ (withIn [0x4d, 0x5a] (waiting [])).inLen ≤ wp.inBufBytes ∧
        b32Decode (withIn [0x4d, 0x5a] (waiting [])).readIn.1 = .ok [0x66]) ∧
      FirstInvalid (withIn [0x4d, 0x5a, 0x31] (waiting [])).readIn.1 2 ∧
      wp.inBufBytes < ({ waiting [] with inlen := 257 } : State).inLen := by
  refine ⟨⟨wp_wf, by decide, by decide +kernel⟩, ⟨0x31, rfl, by decide, by unfold IsSymbol; decide, ?_⟩, by decide⟩
  intro j hj
  have h : j = 0 ∨ j = 1 := by omega
  rcases h with rfl | rfl
  · exact ⟨0x4d, rfl, by decide, by unfold IsSymbol; decide⟩
  · exact ⟨0x5a, rfl, by decide, by unfold IsSymbol; decide⟩

/-- "MZ" is valid text; "74======" decodes to FF, which is not. -/
theorem witness_b32DecodeText :
    ((waiting []).params.wf ∧ b32Decode (withIn [0x4d, 0x5a] (waiting [])).readIn.1 = .ok [0x66] ∧
        utf8FirstBad [0x66] = none) ∧
      (b32Decode (withIn [0x37, 0x34, 0x3d] (waiting [])).readIn.1 = .ok [0xff] ∧ utf8FirstBad [0xff] = some 0) ∧
      FirstInvalid (withIn [0x21] (waiting [])).readIn.1 0 ∧
      wp.inBufBytes < ({ waiting [] with inlen := 257 } : State).inLen :=
  ⟨⟨wp_wf, by decide +kernel, by decide⟩, ⟨by decide +kernel, by decide⟩,
    ⟨0x21, rfl, by decide, by unfold IsSymbol; decide, fun _ h => absurd h (by omega)⟩, by decide⟩

/-! ## The units -/

theorem witness_schedule : (List.replicate 64 (0x61 : Byte)).length = 64 := List.length_replicate

theorem witness_hmac : k20.length ≤ 64 ∧ k20.length + 44 ≤ 64 := by decide

theorem witness_truncation : (List.replicate 20 (0xff : Byte)).length = 20 ∧ 1 ≤ 10 ∧ 10 ≤ 10 := by decide

theorem witness_codeString : (999999 : Word).toNat < 10 ^ 6 ∧ (0 : Word).toNat < 10 ^ 0 := by decide

theorem witness_totpCounterFloor : (4294967295 : Word) ≠ 0 := by decide

theorem witness_verifyWindow : 255 ≤ 255 ∧ 510 ≤ 2 * 255 ∧ 255 ≤ 255 := by decide

/-- The code 7081804 at eight digits: a short candidate, one of full length, a longer one, and one with a letter. -/
theorem witness_candidates :
    (7081804 : Word).toNat < 10 ^ 8 ∧ [0x37, 0x30, 0x38, 0x31, 0x38, 0x30, 0x34].length < 8 ∧
      8 < (List.replicate 9 (0x30 : Byte)).length ∧ (∃ b ∈ [(0x61 : Byte)], b.toNat < 0x30 ∨ 0x39 < b.toNat) ∧
      codeString 8 7081804 = List.replicate 1 0x30 ++ [0x37, 0x30, 0x38, 0x31, 0x38, 0x30, 0x34] := by
  decide +kernel

theorem witness_b32Stream :
    (∀ c ∈ [(0x4d : Byte), 0x7a, 0x37], IsSymbol c) ∧ ((0x3d : Byte) :: [0x21] = 0x3D :: [0x21]) ∧
      b32Decode ([0x4d, 0x7a, 0x37] ++ 0x3d :: [0x21]) = .ok [0x66] := by
  refine ⟨?_, rfl, by decide⟩
  unfold IsSymbol
  decide

theorem witness_b32CommandRoundTrip :
    (withIn [0x66] (waiting [])).params.wf ∧ (withIn [0x66] (waiting [])).inLen ≤ 5 * (wp.inBufBytes / 8) ∧
      ∀ j, j < (withIn [0x66] (waiting [])).inLen → ((withIn [0x66] (waiting [])).mem.read? (0x1000 + j)).isSome := by
  refine ⟨wp_wf, by decide, fun j hj => ?_⟩
  have h : (withIn [0x66] (waiting [])).inLen = 1 := by decide
  obtain rfl : j = 0 := by omega
  decide

/-! ## The whole machine -/

/-- A state with a byte in IN, an output of one byte and an access waiting meets the invariant and takes a step. -/
theorem witness_invariant :
    State.Inv { waiting [lw wp 0x004] with mem := [(0x1000, 0x61), (0x2000, 0x66)], outlen := 1 } ∧
      nextHas (step { waiting [lw wp 0x004] with mem := [(0x1000, 0x61), (0x2000, 0x66)], outlen := 1 })
        (fun t => t.reply == .word 0) = true := by
  refine ⟨⟨wp_wf, by decide, ?_, ?_, ?_, ?_⟩, by decide⟩
  · unfold State.BytesInPlace
    decide
  · intro r
    cases r <;> rfl
  · exact ⟨by decide, by decide, by decide, by decide, by decide⟩
  · exact ⟨by decide, by decide, by decide, by decide, by decide⟩

/-- The input "f", and a state that agrees on it alone: registers B32_ENCODE does not read, the byte beyond INLEN, KEY
and the model's own fields differ. -/
theorem witness_ignoresUnread :
    (withIn [0x66] (waiting [])).params.wf ∧ OperandsWritten .b32Encode (withIn [0x66] (waiting [])) ∧
      ReadsAgree .b32Encode (withIn [0x66] (waiting []))
        { withIn [0x66, 0x67] (waiting [.resetAssert]) with
          inlen := 1, cfg := 0, tstep := 0, keylen := 65, counter := 7, time := 59000, code := 5, trunc := 6, dtoff := 1,
          digest := ⟨1, 2, 3, 4, 5⟩, status := 0x00000101, draws := 9 } := by
  have h : (withIn [0x66] (waiting [])).inLen = 1 := by decide
  refine ⟨wp_wf, ⟨fun hk => absurd hk id, fun _ j hj _ => ?_⟩,
    ⟨rfl, fun hk => absurd hk id, fun hi => absurd hi (by decide), fun hk => absurd hk id, fun hk => absurd hk id,
      fun hi => absurd hi (by decide), fun hk => absurd hk id, fun _ => by decide, fun hk => absurd hk id,
      fun _ j hj _ => ?_⟩⟩
  · obtain rfl : j = 0 := by omega
    decide
  · obtain rfl : j = 0 := by omega
    decide

/-- An input byte the host never wrote: two states that have drawn as often, with different times. -/
theorem witness_ignoresUnread_draws :
    (waiting []).params.wf ∧ ({ waiting [] with inlen := 1, time := 5 } : State).draws = (waiting []).draws ∧
      ReadsAgree .sha1Hash { waiting [] with inlen := 1 } { waiting [] with inlen := 1, time := 5 } :=
  ⟨wp_wf, rfl, ⟨rfl, fun _ => rfl, fun _ => rfl, fun hk => absurd hk id, fun hk => absurd hk id, fun _ => rfl,
    fun _ => rfl, fun _ => rfl, fun _ _ _ _ => rfl, fun _ _ _ _ => rfl⟩⟩

theorem witness_repeatedCommand :
    (waiting []).params.wf ∧ (waiting []).mem.wf ∧ OperandsWritten .hmacSha1 (waiting []) ∧
      ∃ t, exec .hmacSha1 (waiting []) = .next t := by
  have hk : (waiting []).keyLen = 0 := by decide
  have hi : (waiting []).inLen = 0 := by decide
  exact ⟨wp_wf, Memory.wf_nil, ⟨fun _ j hj _ => by omega, fun _ j hj _ => by omega⟩, exec_next _ _⟩

theorem witness_timeChanges :
    nextHas (step (waiting [sw wp 0x038 5])) (fun t => t.time != (waiting [sw wp 0x038 5]).time) = true := by decide

theorem witness_safeRun :
    (waiting [sw wp 0x014 0, lb wp 0x1000, .resetAssert]).phase ≠ .unpowered ∧
      ∀ e ∈ (waiting [sw wp 0x014 0, lb wp 0x1000, .resetAssert]).port, e.wf wp = true ∧ e ≠ .powerLoss := by decide

end Sys2Proof.Tests
end

section
/-! SUPPORT. Every command in one normal form: its register checks in order, the operands it reads, the data error
it can raise, and the results it writes. `exec_eq` ties the form to `exec`; the frames, the flags, the invariant and
the independence from what is not read are then said of the form, once for all ten commands. -/

namespace Sys2Proof.Machine

open Sys2Proof.Statements

/-! ## The parts of a command -/

/-- The register checks of a command, in the order of R292. -/
def checksOf : Instr → List RegCheck
  | .sha1Hash | .b32Encode | .b32Decode | .b32DecodeText => [.inLong]
  | .hmacSha1 => [.keyLong, .inLong]
  | .hotpGen => [.digits, .keyLong]
  | .hotpTrunc => [.digits, .inNot20]
  | .totpCounter => [.tstep]
  | .totpGen => [.digits, .tstep, .keyLong]
  | .totpVerify => [.digits, .tstep, .keyLong, .inLong]

/-- The key bytes a command reads, and the state after; no byte where it reads no key (R95). -/
def State.keyOperand (s : State) : Instr → List Byte × State
  | .hmacSha1 | .hotpGen | .totpGen | .totpVerify => s.readKey
  | .sha1Hash | .hotpTrunc | .totpCounter | .b32Encode | .b32Decode | .b32DecodeText => ([], s)

/-- The input bytes a command reads, and the state after; no byte where it reads no input (R95). -/
def State.inOperand (s : State) : Instr → List Byte × State
  | .sha1Hash | .hmacSha1 | .hotpTrunc | .totpVerify | .b32Encode | .b32Decode | .b32DecodeText => s.readIn
  | .hotpGen | .totpCounter | .totpGen => ([], s)

/-- The bytes a decodable input gives; none where decoding fails. -/
def decodedBytes (M : List Byte) : List Byte :=
  match b32Decode M with
  | .ok D => D
  | .error _ => []

/-- The error the input's bytes raise, and its index: only the Base32 decodes have one (R291). -/
def dataError (i : Instr) (M : List Byte) : Option (ErrorName × Nat) :=
  match i, b32Decode M with
  | .b32Decode, .error j | .b32DecodeText, .error j => some (.invalidChar, j)
  | .b32DecodeText, .ok D => (utf8FirstBad D).map fun j => (.decodeFailure, j)
  | _, _ => none

/-- What a successful command writes: the results it has, its output and its match result. -/
structure Results where
  counter : Option DWord := none
  digest : Option (List Byte) := none
  truncation : Option Truncation := none
  out : List Byte
  isMatch : Bool := false

/-- The results of HOTP with a counter. -/
def hotpResults (s : State) (K : List Byte) (C : DWord) : Results :=
  let r := hotp K (bytesBe64 C) s.cfgDigits
  { digest := some r.hs, truncation := some r.tr, out := codeString s.cfgDigits r.tr.code }

/-- The results of a command on the registers of `s`, the key bytes `K` and the input bytes `M`. -/
def resultsOf (i : Instr) (s : State) (K M : List Byte) : Results :=
  match i with
  | .sha1Hash => { digest := some (sha1 M), out := sha1 M }
  | .hmacSha1 => { digest := some (hmac K M), out := hmac K M }
  | .hotpGen => hotpResults s K s.counter
  | .hotpTrunc =>
    { truncation := some (truncateHs M s.cfgDigits), out := codeString s.cfgDigits (truncateHs M s.cfgDigits).code }
  | .totpCounter => { counter := some (totpCounter s.time s.tstep), out := [] }
  | .totpGen =>
    { hotpResults s K (totpCounter s.time s.tstep) with counter := some (totpCounter s.time s.tstep) }
  | .totpVerify =>
    { counter := some (totpCounter s.time s.tstep), out := []
      isMatch := verify K M (totpCounter s.time s.tstep) s.cfgWindow s.cfgDigits }
  | .b32Encode => { out := b32Encode M }
  | .b32Decode | .b32DecodeText => { out := decodedBytes M }

/-- Write the result registers; one that is not among the results stays. -/
def Results.putRegs (r : Results) (s : State) : State :=
  { s with
    counter := r.counter.getD s.counter
    digest := r.digest.elim s.digest fun dg => (s.putDigest dg).digest
    code := r.truncation.elim s.code (·.code)
    trunc := r.truncation.elim s.trunc (·.p)
    dtoff := r.truncation.elim s.dtoff (·.offset) }

/-- Write the results and the output, then end with success (R294). -/
def Results.write (r : Results) (s : State) : State := ((r.putRegs s).putOut r.out).succeed r.isMatch

/-- The state once a command has read its operands. -/
def State.afterOperands (s : State) (i : Instr) : State := ((s.keyOperand i).2.inOperand i).2

/-- The key bytes a command reads. -/
def State.keyBytes (s : State) (i : Instr) : List Byte := (s.keyOperand i).1

/-- The input bytes a command reads, after its key. -/
def State.inBytes (s : State) (i : Instr) : List Byte := ((s.keyOperand i).2.inOperand i).1

/-- What a command does once its register checks have passed. -/
def commandBody (i : Instr) (s : State) : State :=
  match dataError i (s.inBytes i) with
  | some (e, j) => (s.afterOperands i).raiseError e j
  | none => (resultsOf i s (s.keyBytes i) (s.inBytes i)).write (s.afterOperands i)

theorem State.inBytes_b32Decode (s : State) : s.inBytes .b32Decode = s.readIn.1 := rfl

theorem State.inBytes_b32DecodeText (s : State) : s.inBytes .b32DecodeText = s.readIn.1 := rfl

theorem decodedBytes_of_ok {M D : List Byte} (h : b32Decode M = .ok D) : decodedBytes M = D := by
  simp [decodedBytes, h]

theorem commandBody_of_error {i : Instr} {s : State} {e : ErrorName} {j : Nat}
    (h : dataError i (s.inBytes i) = some (e, j)) : commandBody i s = (s.afterOperands i).raiseError e j := by
  simp [commandBody, h]

theorem commandBody_of_none {i : Instr} {s : State} (h : dataError i (s.inBytes i) = none) :
    commandBody i s = (resultsOf i s (s.keyBytes i) (s.inBytes i)).write (s.afterOperands i) := by
  simp [commandBody, h]

theorem execB32Decode_eq (s : State) : execB32Decode s = runChecked [.inLong] s (commandBody .b32Decode) := by
  unfold execB32Decode
  congr 1
  funext s
  show _ = commandBody .b32Decode s
  cases h : b32Decode s.readIn.1 with
  | error j =>
    rw [commandBody_of_error (e := .invalidChar) (j := j) (by simp [dataError, State.inBytes_b32Decode, h])]
    simp only [h]
    rfl
  | ok D =>
    rw [commandBody_of_none (by simp [dataError, State.inBytes_b32Decode, h]), resultsOf, State.inBytes_b32Decode,
      decodedBytes_of_ok h]
    simp only [h]
    rfl

theorem execB32DecodeText_eq (s : State) :
    execB32DecodeText s = runChecked [.inLong] s (commandBody .b32DecodeText) := by
  unfold execB32DecodeText
  congr 1
  funext s
  show _ = commandBody .b32DecodeText s
  cases h : b32Decode s.readIn.1 with
  | error j =>
    rw [commandBody_of_error (e := .invalidChar) (j := j) (by simp [dataError, State.inBytes_b32DecodeText, h])]
    simp only [h]
    rfl
  | ok D =>
    cases h' : utf8FirstBad D with
    | some j =>
      rw [commandBody_of_error (e := .decodeFailure) (j := j) (by simp [dataError, State.inBytes_b32DecodeText, h, h'])]
      simp only [h, h']
      rfl
    | none =>
      rw [commandBody_of_none (by simp [dataError, State.inBytes_b32DecodeText, h, h']), resultsOf,
        State.inBytes_b32DecodeText, decodedBytes_of_ok h]
      simp only [h, h']
      rfl

/-- Every command is its checks and then its body. -/
theorem exec_eq (i : Instr) (s : State) : exec i s = runChecked (checksOf i) s (commandBody i) := by
  cases i with
  | b32Decode => exact execB32Decode_eq s
  | b32DecodeText => exact execB32DecodeText_eq s
  | sha1Hash | hmacSha1 | hotpGen | hotpTrunc | totpCounter | totpGen | totpVerify | b32Encode => rfl

end Sys2Proof.Machine
end

section
/-! SUPPORT. What the parts of a command read and give: operands, checks, results, and the epilogues' flags. -/

namespace Sys2Proof.Machine

open Sys2Proof.Statements

/-! ## Operands -/

theorem State.keyOperand_of_reads (s : State) {i : Instr} (h : readsKey i) : s.keyOperand i = s.readKey := by
  cases i <;> simp_all [readsKey, State.keyOperand]

theorem State.keyOperand_of_not_reads (s : State) {i : Instr} (h : ¬ readsKey i) : s.keyOperand i = ([], s) := by
  cases i <;> simp_all [readsKey, State.keyOperand]

theorem State.inOperand_of_reads (s : State) {i : Instr} (h : readsIn i) : s.inOperand i = s.readIn := by
  cases i <;> simp_all [readsIn, State.inOperand]

theorem State.inOperand_of_not_reads (s : State) {i : Instr} (h : ¬ readsIn i) : s.inOperand i = ([], s) := by
  cases i <;> simp_all [readsIn, State.inOperand]

theorem State.keyOperand_draws_only (s : State) (i : Instr) : ∃ d, (s.keyOperand i).2 = { s with draws := d } := by
  by_cases h : readsKey i
  · rw [s.keyOperand_of_reads h]
    exact s.readSpan_draws_only _ _
  · rw [s.keyOperand_of_not_reads h]
    exact ⟨s.draws, rfl⟩

theorem State.inOperand_draws_only (s : State) (i : Instr) : ∃ d, (s.inOperand i).2 = { s with draws := d } := by
  by_cases h : readsIn i
  · rw [s.inOperand_of_reads h]
    exact s.readSpan_draws_only _ _
  · rw [s.inOperand_of_not_reads h]
    exact ⟨s.draws, rfl⟩

/-- Reading operands changes nothing but the number of draws. -/
theorem State.afterOperands_draws_only (s : State) (i : Instr) : ∃ d, s.afterOperands i = { s with draws := d } := by
  obtain ⟨d, hd⟩ := s.keyOperand_draws_only i
  obtain ⟨d', hd'⟩ := (s.keyOperand i).2.inOperand_draws_only i
  exact ⟨d', by rw [State.afterOperands, hd', hd]⟩

@[simp] theorem State.keyOperand_mem (s : State) (i : Instr) : (s.keyOperand i).2.mem = s.mem := by
  obtain ⟨d, h⟩ := s.keyOperand_draws_only i; rw [h]

@[simp] theorem State.keyOperand_inLen (s : State) (i : Instr) : (s.keyOperand i).2.inLen = s.inLen := by
  obtain ⟨d, h⟩ := s.keyOperand_draws_only i; rw [h]; rfl

/-! ## Register checks -/

/-- No register check of the command fails. -/
def ChecksPass (i : Instr) (s : State) : Prop := ∀ c ∈ checksOf i, c.fails s = false

theorem ChecksPass.not_fails {i : Instr} {s : State} (h : ChecksPass i s) {c : RegCheck} (hc : c ∈ checksOf i) :
    ¬ c.fails s = true := by simp [h c hc]

theorem ChecksPass.cfgDigits_legal {i : Instr} {s : State} (h : ChecksPass i s) (hr : readsDigits i) :
    1 ≤ s.cfgDigits ∧ s.cfgDigits ≤ 10 := by
  have hm : RegCheck.digits ∈ checksOf i := by cases i <;> simp_all [readsDigits, checksOf]
  have := h.not_fails hm
  rw [RegCheck.fails_digits] at this
  omega

theorem ChecksPass.keyLen_le {i : Instr} {s : State} (h : ChecksPass i s) (hr : readsKey i) : s.keyLen ≤ 64 := by
  have hm : RegCheck.keyLong ∈ checksOf i := by cases i <;> simp_all [readsKey, checksOf]
  have := h.not_fails hm
  rw [RegCheck.fails_keyLong] at this
  omega

theorem ChecksPass.inLen_le {i : Instr} {s : State} (hw : s.params.wf) (h : ChecksPass i s) (hr : readsIn i) :
    s.inLen ≤ s.params.inBufBytes := by
  have hm : RegCheck.inLong ∈ checksOf i ∨ RegCheck.inNot20 ∈ checksOf i := by
    cases i <;> simp_all [readsIn, checksOf]
  have h64 : 64 ≤ s.params.inBufBytes := hw.2.1
  rcases hm with hm | hm
  · have := h.not_fails hm
    rw [RegCheck.fails_inLong] at this
    omega
  · have := h.not_fails hm
    rw [RegCheck.fails_inNot20] at this
    omega

theorem State.inBytes_length_le {i : Instr} {s : State} (hw : s.params.wf) (h : ChecksPass i s) :
    (s.inBytes i).length ≤ s.params.inBufBytes := by
  by_cases hr : readsIn i
  · rw [State.inBytes, State.inOperand_of_reads _ hr, State.readIn, State.readSpan_length, State.keyOperand_inLen]
    exact h.inLen_le hw hr
  · simp [State.inBytes, State.inOperand_of_not_reads _ hr]

/-! ## Data errors -/

theorem dataError_name {i : Instr} {M : List Byte} {e : ErrorName} {j : Nat} (h : dataError i M = some (e, j)) :
    e = .invalidChar ∨ e = .decodeFailure := by
  unfold dataError at h
  split at h
  · simp_all
  · simp_all
  · simp only [Option.map_eq_some_iff] at h
    simp_all
  · cases h

/-! ## Results -/

theorem decodedBytes_length (M : List Byte) : 8 * (decodedBytes M).length ≤ 5 * M.length := by
  unfold decodedBytes
  split
  · next h => exact b32Decode_length h
  · simp

theorem Params.outBufBytes_bounds {p : Params} (h : p.wf) : 104 ≤ p.outBufBytes ∧ p.outBufBytes ≤ 6560 := by
  obtain ⟨-, hlo, hhi, -⟩ := h
  unfold Params.outBufBytes
  omega

/-- The length of an output that fits OUT is a value of OUTLEN. -/
theorem Params.lt_of_fits {p : Params} (h : p.wf) {n : Nat} (hn : n ≤ p.outBufBytes) : n < 2 ^ 32 := by
  have := (Params.outBufBytes_bounds h).2
  omega

/-- The output of a command whose checks have passed fits OUT. -/
theorem resultsOf_out_fits {i : Instr} {s : State} {K M : List Byte} (hw : s.params.wf) (hc : ChecksPass i s)
    (hM : M.length ≤ s.params.inBufBytes) : (resultsOf i s K M).out.length ≤ s.params.outBufBytes := by
  have hout := (Params.outBufBytes_bounds hw).1
  have hdigits := hc.cfgDigits_legal
  cases i with
  | sha1Hash | hmacSha1 =>
    simp only [resultsOf, sha1_length, hmac_length]
    omega
  | hotpGen | hotpTrunc | totpGen =>
    simp only [resultsOf, hotpResults, codeString_length]
    have := hdigits trivial
    omega
  | totpCounter | totpVerify => exact Nat.zero_le _
  | b32Encode =>
    simp only [resultsOf, b32Encode_length, Params.outBufBytes]
    omega
  | b32Decode | b32DecodeText =>
    have := decodedBytes_length M
    simp only [resultsOf, Params.outBufBytes]
    omega

theorem resultsOf_digest_eq_none (i : Instr) (s : State) (K M : List Byte) :
    (resultsOf i s K M).digest = none ↔ ¬ writesDigest i := by
  cases i <;> simp [writesDigest, resultsOf, hotpResults]

theorem resultsOf_truncation_eq_none (i : Instr) (s : State) (K M : List Byte) :
    (resultsOf i s K M).truncation = none ↔ ¬ writesTruncation i := by
  cases i <;> simp [writesTruncation, resultsOf, hotpResults]

/-- The commands that write COUNTER are those that read TIME. -/
theorem resultsOf_counter_eq_none (i : Instr) (s : State) (K M : List Byte) :
    (resultsOf i s K M).counter = none ↔ ¬ readsTime i := by
  cases i <;> simp [readsTime, resultsOf, hotpResults]

/-- Only a verification gives a match, and it gives the one of its verify function. -/
theorem resultsOf_isMatch (i : Instr) (s : State) (K M : List Byte) :
    (resultsOf i s K M).isMatch = true ↔
      i = .totpVerify ∧ verify K M (totpCounter s.time s.tstep) s.cfgWindow s.cfgDigits = true := by
  cases i <;> simp [resultsOf, hotpResults]

/-! ## The flags after an epilogue -/

@[simp] theorem State.raiseError_errFlag (s : State) (e : ErrorName) (j : Nat) : (s.raiseError e j).errFlag = true :=
  statusWord_err _ _ _

@[simp] theorem State.raiseError_matchFlag (s : State) (e : ErrorName) (j : Nat) :
    (s.raiseError e j).matchFlag = false := statusWord_match _ _ _

@[simp] theorem State.raiseError_errCode (s : State) (e : ErrorName) (j : Nat) :
    (s.raiseError e j).errCode = e.errCode := statusWord_code _ _ _

@[simp] theorem Results.write_errFlag (r : Results) (s : State) : (r.write s).errFlag = false := statusWord_err _ _ _

@[simp] theorem Results.write_matchFlag (r : Results) (s : State) : (r.write s).matchFlag = r.isMatch :=
  statusWord_match _ _ _

@[simp] theorem Results.write_errCode (r : Results) (s : State) : (r.write s).errCode = 0 := statusWord_code _ _ _

theorem ErrorName.errCode_ne_zero (e : ErrorName) : e.errCode ≠ 0 := by cases e <;> decide

/-! ## What a command can do -/

/-- Everything a command can do: raise an error, or pass its checks and write its results. Both leave what they do not
name, the number of draws excepted. -/
theorem exec_cases {i : Instr} {s t : State} (h : exec i s = .next t) :
    (∃ e j d, t = State.raiseError { s with draws := d } e j ∧ (j ≠ 0 → e = .invalidChar ∨ e = .decodeFailure)) ∨
      (ChecksPass i s ∧ ∃ d, t = (resultsOf i s (s.keyBytes i) (s.inBytes i)).write { s with draws := d }) := by
  rw [exec_eq] at h
  rcases runChecked_cases (checksOf i) s (commandBody i) with ⟨c, -, -, hrun⟩ | ⟨hpass, hrun⟩
  · cases hrun.symm.trans h
    exact .inl ⟨c.error, 0, s.draws, rfl, fun hj => absurd rfl hj⟩
  · cases hrun.symm.trans h
    obtain ⟨d, hd⟩ := s.afterOperands_draws_only i
    rcases hdata : dataError i (s.inBytes i) with _ | ⟨e, j⟩
    · exact .inr ⟨hpass, d, by rw [commandBody_of_none hdata, hd]⟩
    · exact .inl ⟨e, j, d, by rw [commandBody_of_error hdata, hd], fun _ => dataError_name hdata⟩

/-- Everything a success does to one byte: OUT holds the output and nothing else, every other byte is as before. -/
theorem Results.write_read? {r : Results} {s : State} (hfit : r.out.length ≤ s.params.outBufBytes)
    (hlt : r.out.length < 2 ^ 32) (a : Nat) :
    (r.write s).mem.read? a =
      if Config.outBase ≤ a ∧ a < s.outEnd then r.out[a - Config.outBase]? else s.mem.read? a :=
  State.putOut_succeed_read? (r.putRegs s) r.out r.isMatch a hfit hlt

theorem State.raiseError_inputsKept (s : State) (d : Nat) (e : ErrorName) (j : Nat) :
    InputsKept s (State.raiseError { s with draws := d } e j) where
  cfg := rfl
  tstep := rfl
  keylen := rfl
  inlen := rfl
  time := rfl
  bytes a ha := by
    rw [State.raiseError_read?]
    exact if_neg ha
  phase := rfl
  params := rfl
  port := rfl
  reply := rfl

theorem Results.write_inputsKept {r : Results} {s : State} (hw : s.params.wf)
    (hfit : r.out.length ≤ s.params.outBufBytes) (d : Nat) : InputsKept s (r.write { s with draws := d }) where
  cfg := rfl
  tstep := rfl
  keylen := rfl
  inlen := rfl
  time := rfl
  bytes a ha := by
    rw [Results.write_read? (s := { s with draws := d }) hfit (Params.lt_of_fits hw hfit)]
    exact if_neg ha
  phase := rfl
  params := rfl
  port := rfl
  reply := rfl

theorem Results.write_digestKept {r : Results} (h : r.digest = none) (s : State) (d : Nat) :
    DigestKept s (r.write { s with draws := d }) := by
  show r.digest.elim s.digest _ = _
  rw [h]
  rfl

theorem Results.write_truncationKept {r : Results} (h : r.truncation = none) (s : State) (d : Nat) :
    TruncationKept s (r.write { s with draws := d }) := by
  show r.truncation.elim s.code _ = _ ∧ r.truncation.elim s.trunc _ = _ ∧ r.truncation.elim s.dtoff _ = _
  rw [h]
  exact ⟨rfl, rfl, rfl⟩

theorem Results.write_counterKept {r : Results} (h : r.counter = none) (s : State) (d : Nat) :
    CounterKept s (r.write { s with draws := d }) := by
  show r.counter.getD s.counter = _
  rw [h]
  rfl

/-- A result that is among those a command has does not depend on the state it is written to. -/
theorem Results.write_digest_congr {r : Results} {dg : List Byte} (h : r.digest = some dg) (s s' : State) :
    (r.write s').digest = (r.write s).digest := by
  show r.digest.elim s'.digest _ = r.digest.elim s.digest _
  rw [h]
  rfl

theorem Results.write_truncation_congr {r : Results} {tr : Truncation} (h : r.truncation = some tr) (s s' : State) :
    (r.write s').code = (r.write s).code ∧ (r.write s').trunc = (r.write s).trunc ∧
      (r.write s').dtoff = (r.write s).dtoff := by
  show r.truncation.elim s'.code _ = r.truncation.elim s.code _ ∧
    r.truncation.elim s'.trunc _ = r.truncation.elim s.trunc _ ∧
    r.truncation.elim s'.dtoff _ = r.truncation.elim s.dtoff _
  rw [h]
  exact ⟨rfl, rfl, rfl⟩

theorem Results.write_counter_congr {r : Results} {c : DWord} (h : r.counter = some c) (s s' : State) :
    (r.write s').counter = (r.write s).counter := by
  show r.counter.getD s'.counter = r.counter.getD s.counter
  rw [h]
  rfl

theorem State.raiseError_resultsKept (s : State) (d : Nat) (e : ErrorName) (j : Nat) :
    DigestKept s (State.raiseError { s with draws := d } e j) ∧
      TruncationKept s (State.raiseError { s with draws := d } e j) ∧
      CounterKept s (State.raiseError { s with draws := d } e j) :=
  ⟨rfl, ⟨rfl, rfl, rfl⟩, rfl⟩

/-- Settles O22: an error keeps everything but the error report and OUT; a success writes OUT within its range and the
results its command has. -/
theorem commandsKeepWhatTheyDoNotWrite : Obligations.CommandsKeepWhatTheyDoNotWrite := by
  intro i s t hw h
  rcases exec_cases h with ⟨e, j, d, rfl, -⟩ | ⟨hpass, d, rfl⟩
  · obtain ⟨hdigest, htrunc, hcounter⟩ := s.raiseError_resultsKept d e j
    exact ⟨s.raiseError_inputsKept d e j, fun _ => hdigest, fun _ => htrunc, fun _ => hcounter,
      fun _ => ⟨hdigest, htrunc, hcounter⟩⟩
  · have hfit := resultsOf_out_fits (K := s.keyBytes i) hw hpass (State.inBytes_length_le hw hpass)
    refine ⟨Results.write_inputsKept hw hfit d, fun hi => ?_, fun hi => ?_, fun hi => ?_, fun herr => ?_⟩
    · have : ¬ writesDigest i := by cases i <;> simp_all [writesDigest]
      exact Results.write_digestKept ((resultsOf_digest_eq_none _ _ _ _).mpr this) s d
    · have : ¬ writesTruncation i := by cases i <;> simp_all [writesTruncation]
      exact Results.write_truncationKept ((resultsOf_truncation_eq_none _ _ _ _).mpr this) s d
    · have : ¬ readsTime i := by cases i <;> simp_all [readsTime]
      exact Results.write_counterKept ((resultsOf_counter_eq_none _ _ _ _).mpr this) s d
    · simp at herr

end Sys2Proof.Machine
end

section
/-! SUPPORT. Two runs of one command: states that agree on what the command reads pass the same checks, read the same
operands and have the same results. -/

namespace Sys2Proof.Machine

open Sys2Proof.Statements

/-! ## The same checks -/

/-- States whose checks agree raise the same register error, or both run the body. -/
theorem runChecked_agree {checks : List RegCheck} {s s' : State} (h : ∀ c ∈ checks, c.fails s' = c.fails s)
    (body : State → State) :
    (∃ c : RegCheck, runChecked checks s body = .next (s.raiseError c.error 0) ∧
        runChecked checks s' body = .next (s'.raiseError c.error 0)) ∨
      ((∀ c ∈ checks, c.fails s = false) ∧ runChecked checks s body = .next (body s) ∧
        runChecked checks s' body = .next (body s')) := by
  induction checks with
  | nil => exact .inr ⟨by simp, rfl, rfl⟩
  | cons c cs ih =>
    rw [runChecked_cons, runChecked_cons, h c List.mem_cons_self]
    cases hc : c.fails s with
    | true => exact .inl ⟨c, rfl, rfl⟩
    | false => simpa [hc] using ih fun c' hc' => h c' (List.mem_cons_of_mem _ hc')

theorem exec_agree {i : Instr} {s s' : State} (h : ∀ c ∈ checksOf i, c.fails s' = c.fails s) :
    (∃ e : ErrorName, exec i s = .next (s.raiseError e 0) ∧ exec i s' = .next (s'.raiseError e 0)) ∨
      (ChecksPass i s ∧ exec i s = .next (commandBody i s) ∧ exec i s' = .next (commandBody i s')) := by
  rw [exec_eq, exec_eq]
  exact (runChecked_agree h _).imp_left fun ⟨c, hs⟩ => ⟨c.error, hs⟩

/-! ## The same operands -/

/-- The two states give the command the same operand bytes, unspecified ones included. -/
structure OperandsAgree (i : Instr) (s s' : State) : Prop where
  keyLen : readsKey i → s'.keyLen = s.keyLen
  inLen : readsIn i → s'.inLen = s.inLen
  key : readsKey i → ∀ j < s.keyLen, s'.mem.read? (Config.keyBase + j) = s.mem.read? (Config.keyBase + j)
  inp : readsIn i → ∀ j < s.inLen, s'.mem.read? (Config.inBase + j) = s.mem.read? (Config.inBase + j)

section
variable {i : Instr} {s s' : State} (h : OperandsAgree i s s')
include h

theorem OperandsAgree.keyOperand_of_draws (hd : s'.draws = s.draws) :
    s'.keyBytes i = s.keyBytes i ∧ (s'.keyOperand i).2.draws = (s.keyOperand i).2.draws := by
  unfold State.keyBytes
  by_cases hr : readsKey i
  · rw [s.keyOperand_of_reads hr, s'.keyOperand_of_reads hr, State.readKey, State.readKey, h.keyLen hr]
    exact State.readSpan_congr_draws hd (h.key hr)
  · rw [s.keyOperand_of_not_reads hr, s'.keyOperand_of_not_reads hr]
    exact ⟨rfl, hd⟩

/-- States that have drawn as often read the same operands and then have drawn as often. -/
theorem OperandsAgree.of_draws (hd : s'.draws = s.draws) :
    s'.keyBytes i = s.keyBytes i ∧ s'.inBytes i = s.inBytes i ∧
      (s'.afterOperands i).draws = (s.afterOperands i).draws := by
  obtain ⟨hkey, hd'⟩ := h.keyOperand_of_draws hd
  refine ⟨hkey, ?_⟩
  unfold State.inBytes State.afterOperands
  by_cases hr : readsIn i
  · rw [State.inOperand_of_reads _ hr, State.inOperand_of_reads _ hr, State.readIn, State.readIn,
      State.keyOperand_inLen, State.keyOperand_inLen, h.inLen hr]
    exact State.readSpan_congr_draws hd' (by simpa using h.inp hr)
  · rw [State.inOperand_of_not_reads _ hr, State.inOperand_of_not_reads _ hr]
    exact ⟨rfl, hd'⟩

/-- Where every operand byte has a value, the number of draws does not matter. -/
theorem OperandsAgree.of_written
    (hkey : readsKey i → ∀ j < s.keyLen, (s.mem.read? (Config.keyBase + j)).isSome)
    (hin : readsIn i → ∀ j < s.inLen, (s.mem.read? (Config.inBase + j)).isSome) :
    s'.keyBytes i = s.keyBytes i ∧ s'.inBytes i = s.inBytes i := by
  constructor
  · unfold State.keyBytes
    by_cases hr : readsKey i
    · rw [s.keyOperand_of_reads hr, s'.keyOperand_of_reads hr, State.readKey, State.readKey, h.keyLen hr]
      exact State.readSpan_congr (hkey hr) (h.key hr)
    · rw [s.keyOperand_of_not_reads hr, s'.keyOperand_of_not_reads hr]
  · unfold State.inBytes
    by_cases hr : readsIn i
    · rw [State.inOperand_of_reads _ hr, State.inOperand_of_reads _ hr, State.readIn, State.readIn,
        State.keyOperand_inLen, State.keyOperand_inLen, h.inLen hr]
      exact State.readSpan_congr (by simpa using hin hr) (by simpa using h.inp hr)
    · rw [State.inOperand_of_not_reads _ hr, State.inOperand_of_not_reads _ hr]

end

/-! ## No command reads STATUS (R38) -/

theorem commandBody_set_status (i : Instr) (s : State) (x : Word) :
    commandBody i { s with status := x } = commandBody i s := by
  have hagree : OperandsAgree i s { s with status := x } :=
    ⟨fun _ => rfl, fun _ => rfl, fun _ _ _ => rfl, fun _ _ _ => rfl⟩
  obtain ⟨hkey, hin, hdraws⟩ := hagree.of_draws rfl
  obtain ⟨d, hd⟩ := s.afterOperands_draws_only i
  obtain ⟨d', hd'⟩ := State.afterOperands_draws_only { s with status := x } i
  obtain rfl : d' = d := by rwa [hd, hd'] at hdraws
  rcases hdata : dataError i (s.inBytes i) with _ | ⟨e, j⟩
  · rw [commandBody_of_none hdata, commandBody_of_none (hin.symm ▸ hdata), hkey, hin, hd, hd']
    rfl
  · rw [commandBody_of_error hdata, commandBody_of_error (hin.symm ▸ hdata), hd, hd']
    rfl

theorem exec_set_status (i : Instr) (s : State) (x : Word) : exec i { s with status := x } = exec i s := by
  have hchecks : ∀ c ∈ checksOf i, c.fails { s with status := x } = c.fails s := fun c _ => by cases c <;> rfl
  rcases exec_agree hchecks with ⟨e, hs, hs'⟩ | ⟨-, hs, hs'⟩
  · rw [hs, hs']
    rfl
  · rw [hs, hs', commandBody_set_status]

/-- Settles O23: the flags are those of the epilogue the command ended with, and STATUS is not among what it reads. -/
theorem flagsAreWrittenByEveryCommandAndReadByNone : Obligations.FlagsAreWrittenByEveryCommandAndReadByNone := by
  refine ⟨fun i s t h => ?_, exec_set_status, by decide, by decide⟩
  rcases exec_cases h with ⟨e, j, d, rfl, -⟩ | ⟨-, d, rfl⟩
  · exact ⟨by simpa using e.errCode_ne_zero, by simp⟩
  · refine ⟨by simp, ?_⟩
    rw [Results.write_matchFlag, resultsOf_isMatch]
    constructor
    · rintro ⟨rfl, hverify⟩
      exact ⟨rfl, Results.write_errFlag _ _, hverify⟩
    · rintro ⟨rfl, -, hverify⟩
      exact ⟨rfl, hverify⟩

end Sys2Proof.Machine

/-! ## Two states that agree on what the command reads -/

namespace Sys2Proof.Statements

open Sys2Proof.Machine

section
variable {i : Instr} {s s' : State} (h : ReadsAgree i s s')
include h

theorem ReadsAgree.checks : ∀ c ∈ checksOf i, c.fails s' = c.fails s := by
  obtain ⟨hbuf, hdigits, -, htstep, -, -, hkeyLen, hinLen, -, -⟩ := h
  cases i <;> simp_all [checksOf, readsDigits, readsTime, readsKey, readsIn, RegCheck.fails]

theorem ReadsAgree.operands (hw : s.params.wf) (hc : ChecksPass i s) : OperandsAgree i s s' where
  keyLen := h.keyLen
  inLen := h.inLen
  key hr j hj := h.keyBytes hr j hj (lt_of_lt_of_le hj (hc.keyLen_le hr))
  inp hr j hj := h.inBytes hr j hj (lt_of_lt_of_le hj (hc.inLen_le hw hr))

theorem ReadsAgree.resultsOf_eq (K M : List Byte) : resultsOf i s' K M = resultsOf i s K M := by
  obtain ⟨-, hdigits, hwindow, htstep, htime, hcounter, -, -, -, -⟩ := h
  cases i <;> simp_all [resultsOf, hotpResults, readsDigits, readsTime]

theorem ReadsAgree.operandBytes_eq (hw : s.params.wf) (hc : ChecksPass i s)
    (hbytes : OperandsWritten i s ∨ s'.draws = s.draws) :
    s'.keyBytes i = s.keyBytes i ∧ s'.inBytes i = s.inBytes i := by
  rcases hbytes with ⟨hkey, hin⟩ | hd
  · exact (h.operands hw hc).of_written (fun hr j hj => hkey hr j hj (lt_of_lt_of_le hj (hc.keyLen_le hr)))
      fun hr j hj => hin hr j hj (lt_of_lt_of_le hj (hc.inLen_le hw hr))
  · obtain ⟨hkey, hin, -⟩ := (h.operands hw hc).of_draws hd
    exact ⟨hkey, hin⟩

theorem ReadsAgree.outBufBytes_eq : s'.params.outBufBytes = s.params.outBufBytes := by
  simp [Params.outBufBytes, h.bufBytes]

/-- An error reports the same in both runs and keeps every result. -/
theorem ReadsAgree.sameResults_raiseError (d d' : Nat) (e : ErrorName) (j : Nat) :
    SameResults i s s' (State.raiseError { s with draws := d } e j) (State.raiseError { s' with draws := d' } e j) where
  status := rfl
  erridx := rfl
  outlen := rfl
  out a ha := by
    have ha' : InOut s' a := by simpa [InOut, h.bufBytes] using ha
    rw [State.raiseError_read?, State.raiseError_read?]
    exact (if_pos ha').trans (if_pos ha).symm
  digest _ herr := by simp at herr
  digestKept _ := ⟨rfl, rfl⟩
  truncation _ herr := by simp at herr
  truncationKept _ := ⟨⟨rfl, rfl, rfl⟩, rfl, rfl, rfl⟩
  counter _ herr := by simp at herr
  counterKept _ := ⟨rfl, rfl⟩

/-- A success writes the same in both runs. -/
theorem ReadsAgree.sameResults_write {r : Results} (hfit : r.out.length ≤ s.params.outBufBytes)
    (hlt : r.out.length < 2 ^ 32) (hdigest : r.digest = none ↔ ¬ writesDigest i)
    (htrunc : r.truncation = none ↔ ¬ writesTruncation i) (hcounter : r.counter = none ↔ ¬ readsTime i) (d d' : Nat) :
    SameResults i s s' (r.write { s with draws := d }) (r.write { s' with draws := d' }) where
  status := rfl
  erridx := rfl
  outlen := rfl
  out a ha := by
    have ha' : InOut s' a := by simpa [InOut, h.bufBytes] using ha
    have hfit' : r.out.length ≤ s'.params.outBufBytes := by rwa [h.outBufBytes_eq]
    rw [Results.write_read? (s := { s with draws := d }) hfit hlt,
      Results.write_read? (s := { s' with draws := d' }) hfit' hlt]
    exact (if_pos ha').trans (if_pos ha).symm
  digest hi _ := by
    obtain ⟨dg, hdg⟩ := Option.ne_none_iff_exists'.mp (mt hdigest.mp (not_not_intro hi))
    exact Results.write_digest_congr hdg _ _
  digestKept hi := by
    have := hdigest.mpr (by simpa using hi)
    exact ⟨Results.write_digestKept this s d, Results.write_digestKept this s' d'⟩
  truncation hi _ := by
    obtain ⟨tr, htr⟩ := Option.ne_none_iff_exists'.mp (mt htrunc.mp (not_not_intro hi))
    exact Results.write_truncation_congr htr _ _
  truncationKept hi := by
    have := htrunc.mpr (by simpa using hi)
    exact ⟨Results.write_truncationKept this s d, Results.write_truncationKept this s' d'⟩
  counter hi _ := by
    obtain ⟨c, hc⟩ := Option.ne_none_iff_exists'.mp (mt hcounter.mp (not_not_intro hi))
    exact Results.write_counter_congr hc _ _
  counterKept hi := by
    have := hcounter.mpr (by simpa using hi)
    exact ⟨Results.write_counterKept this s d, Results.write_counterKept this s' d'⟩

theorem ReadsAgree.sameResults_commandBody (hw : s.params.wf) (hc : ChecksPass i s)
    (hbytes : OperandsWritten i s ∨ s'.draws = s.draws) :
    SameResults i s s' (commandBody i s) (commandBody i s') := by
  obtain ⟨hkey, hin⟩ := h.operandBytes_eq hw hc hbytes
  obtain ⟨d, hd⟩ := s.afterOperands_draws_only i
  obtain ⟨d', hd'⟩ := s'.afterOperands_draws_only i
  rcases hdata : dataError i (s.inBytes i) with _ | ⟨e, j⟩
  · have hfit := resultsOf_out_fits (K := s.keyBytes i) hw hc (State.inBytes_length_le hw hc)
    rw [commandBody_of_none hdata, commandBody_of_none (hin.symm ▸ hdata), hkey, hin, h.resultsOf_eq, hd, hd']
    exact h.sameResults_write hfit (Params.lt_of_fits hw hfit) (resultsOf_digest_eq_none _ _ _ _)
      (resultsOf_truncation_eq_none _ _ _ _) (resultsOf_counter_eq_none _ _ _ _) d d'
  · rw [commandBody_of_error hdata, commandBody_of_error (hin.symm ▸ hdata), hd, hd']
    exact h.sameResults_raiseError d d' e j

end

end Sys2Proof.Statements

namespace Sys2Proof.Machine

/-- Settles O54: the states fail the same check first or none, and then run the body on the same operands. -/
theorem commandsIgnoreWhatTheyDoNotRead : Obligations.CommandsIgnoreWhatTheyDoNotRead := by
  intro i s s' hw h hbytes
  rcases exec_agree h.checks with ⟨e, hs, hs'⟩ | ⟨hpass, hs, hs'⟩
  · exact ⟨_, _, hs, hs', h.sameResults_raiseError s.draws s'.draws e 0⟩
  · exact ⟨_, _, hs, hs', h.sameResults_commandBody hw hpass hbytes⟩

end Sys2Proof.Machine
end

section
/-! SUPPORT. The host port: where an access goes, what a register write does to every register, and everything one
served event can do. -/

namespace Sys2Proof.Machine

open Sys2Proof.Statements

/-! ## Where an access goes -/

theorem Params.windowOffset_base_add (p : Params) {off : Nat} (h : off < Config.windowBytes) :
    p.windowOffset (p.engineBase + off) = some off := by
  simp [Params.windowOffset, h]

theorem Params.windowOffset_eq_some {p : Params} {addr off : Nat} (h : p.windowOffset addr = some off) :
    addr = p.engineBase + off := by
  unfold Params.windowOffset at h
  split at h
  · next hin =>
    cases h
    omega
  · cases h

theorem HostReg.offset_lt (r : HostReg) : r.offset < Config.regEnd := by cases r <;> decide

theorem HostReg.ofOffset_offset (r : HostReg) : HostReg.ofOffset r.offset = some r := by cases r <;> rfl

theorem HostReg.ofOffset_eq_some {off : Nat} {r : HostReg} (h : HostReg.ofOffset off = some r) : off = r.offset := by
  unfold HostReg.ofOffset at h
  split at h <;> cases h <;> rfl

theorem Params.regionOf_offset (p : Params) (r : HostReg) : p.regionOf r.offset = .reg r := by
  simp only [Params.regionOf, if_pos r.offset_lt, HostReg.ofOffset_offset]

theorem Params.regionOf_eq_reg {p : Params} {off : Nat} {r : HostReg} (h : p.regionOf off = .reg r) :
    off = r.offset := by
  unfold Params.regionOf at h
  split at h
  · cases hr : HostReg.ofOffset off with
    | none => simp [hr] at h
    | some r' =>
      simp only [hr] at h
      cases h
      exact HostReg.ofOffset_eq_some hr
  · split_ifs at h

theorem Params.regionOf_eq_key {p : Params} {off : Nat} (h : p.regionOf off = .key) :
    Config.keyBase ≤ off ∧ off < Config.keyBase + Config.keyBytes := by
  unfold Params.regionOf at h
  split at h
  · cases hr : HostReg.ofOffset off <;> simp [hr] at h
  · split_ifs at h
    exact ⟨Nat.le_of_not_lt ‹_›, ‹_›⟩

theorem Params.regionOf_eq_inBuf {p : Params} {off : Nat} (h : p.regionOf off = .inBuf) :
    Config.inBase ≤ off ∧ off < Config.inBase + p.inBufBytes := by
  unfold Params.regionOf at h
  split at h
  · cases hr : HostReg.ofOffset off <;> simp [hr] at h
  · split_ifs at h
    exact ⟨Nat.le_of_not_lt ‹_›, ‹_›⟩

theorem HostReg.legalAccess_offset (r : HostReg) : legalAccess r.offset 4 = true := by cases r <;> rfl

theorem legalAccess_iff (off n : Nat) :
    legalAccess off n = true ↔ (n = 4 ∧ off % 4 = 0) ∨ (n = 1 ∧ Config.regEnd ≤ off) := by
  simp [legalAccess]

/-- A register is accessed by four bytes alone (R64). -/
theorem legalAccess_reg {off n : Nat} (h : legalAccess off n = true) (hlt : off < Config.regEnd) : n = 4 := by
  rw [legalAccess_iff] at h
  omega

/-! ## Steps of a running engine -/

theorem step_access {s : State} {a : Access} {rest : List PortEvent} (h : Next s a rest) :
    step s = serveAccess a { s with port := rest } := by
  obtain ⟨hphase, hport⟩ := h
  simp [step, hport, serve, hphase]

/-- A 32-bit write to a register reaches the port as a write at its offset. -/
theorem step_write_reg {s : State} {r : HostReg} {v : Word} {rest : List PortEvent}
    (h : Next s (.write (s.params.engineBase + r.offset) 4 v) rest) :
    step s = portWrite { s with port := rest } r.offset 4 v := by
  rw [step_access h]
  have hoff := s.params.windowOffset_base_add (lt_trans r.offset_lt (by decide))
  simp [serveAccess, hoff, r.legalAccess_offset]

theorem portWrite_cmd (s : State) (n : Nat) (v : Word) :
    portWrite s HostReg.cmd.offset n v = runCommand v (s.answer .written) := by
  simp [portWrite, s.params.regionOf_offset]

theorem portWrite_reg (s : State) {r : HostReg} (hr : r ≠ .cmd) (n : Nat) (v : Word) :
    portWrite s r.offset n v = .next ((s.writeReg r v).answer .written) := by
  unfold portWrite
  rw [s.params.regionOf_offset]
  cases r <;> simp_all

theorem runCommand_of_ok {v : Word} {i : Instr} (h : decode v = .ok i) (s : State) : runCommand v s = exec i s := by
  simp [runCommand, h]

theorem step_cmd {s : State} {v : Word} {i : Instr} {rest : List PortEvent}
    (h : Next s (.write s.params.engineBase 4 v) rest) (hv : decode v = .ok i) :
    step s = exec i { s with port := rest, reply := .written } := by
  rw [step_write_reg (r := .cmd) h, portWrite_cmd, runCommand_of_ok hv]
  rfl

/-- Settles O4: the write reaches CMD, at offset 0 of the window, and `withFetchWord` queues such a write. -/
theorem stepRunsTheDecodedCommand : Obligations.StepRunsTheDecodedCommand := by
  refine ⟨fun s v i rest h hv => step_cmd h hv, fun s w i hv => ?_⟩
  have hword : BitVec.ofNat 32 (w % 2 ^ 32) = BitVec.ofNat 32 w := by simp [← BitVec.toNat_inj]
  exact step_cmd (s := s.withFetchWord 32 w) (rest := s.port) ⟨rfl, rfl⟩ (by rwa [hword])

/-! ## Register writes -/

/-- A write keeps the reserved bits (R37). -/
theorem State.mergeReg_reserved (s : State) (r : HostReg) (v : Word) :
    s.mergeReg r v &&& ~~~r.fields = s.rawReg r &&& ~~~r.fields := by
  simp [State.mergeReg, BitVec.and_or_distrib_right, BitVec.and_assoc]

/-- A write stores the value's bits of the fields (R37). -/
theorem State.mergeReg_fields (s : State) (r : HostReg) (v : Word) :
    s.mergeReg r v &&& r.fields = v &&& r.fields := by
  simp [State.mergeReg, BitVec.and_or_distrib_right, BitVec.and_assoc]

/-- The two halves of a 64-bit register made of two words. -/
theorem lowWord_append (hi lo : Word) : BitVec.extractLsb' (n := 64) 0 32 (hi ++ lo) = lo :=
  BitVec.extractLsb'_append_eq_right

theorem highWord_append (hi lo : Word) : BitVec.extractLsb' (n := 64) 32 32 (hi ++ lo) = hi :=
  BitVec.extractLsb'_append_eq_left

theorem State.rawReg_writeReg_self (s : State) {r : HostReg} (h : IsRw r) (v : Word) :
    (s.writeReg r v).rawReg r = s.mergeReg r v := by
  cases r with
  | cfg | tstep | keylen | inlen => rfl
  | counterLo | timeLo => exact lowWord_append _ _
  | counterHi | timeHi => exact highWord_append _ _
  | cmd | status | outlen | erridx | code | trunc | dtoff => exact h.elim
  | digest0 | digest1 | digest2 | digest3 | digest4 => exact h.elim

/-- A write changes no other register: a half of COUNTER or of TIME keeps the other half. -/
theorem State.rawReg_writeReg_of_ne (s : State) {r r' : HostReg} (h : r' ≠ r) (v : Word) :
    (s.writeReg r v).rawReg r' = s.rawReg r' := by
  cases r with
  | cfg | tstep | keylen | inlen => cases r' <;> simp_all [State.writeReg, State.rawReg]
  | counterLo | timeLo => cases r' <;> simp_all [State.writeReg, State.rawReg, highWord_append]
  | counterHi | timeHi => cases r' <;> simp_all [State.writeReg, State.rawReg, lowWord_append]
  | cmd | status | outlen | erridx | code | trunc | dtoff => rfl
  | digest0 | digest1 | digest2 | digest3 | digest4 => rfl

theorem State.writeReg_of_not_isRw (s : State) {r : HostReg} (h : ¬ IsRw r) (v : Word) : s.writeReg r v = s := by
  cases r <;> simp_all [IsRw, State.writeReg]

/-- No register write changes a reserved bit of any register. -/
theorem State.rawReg_writeReg_reserved (s : State) (r r' : HostReg) (v : Word) :
    (s.writeReg r v).rawReg r' &&& ~~~r'.fields = s.rawReg r' &&& ~~~r'.fields := by
  by_cases hrw : IsRw r
  · by_cases hr : r' = r
    · subst hr
      rw [s.rawReg_writeReg_self hrw, s.mergeReg_reserved]
    · rw [s.rawReg_writeReg_of_ne hr]
  · rw [s.writeReg_of_not_isRw hrw]

/-- The reserved bits of the registers a host can write: CFG and KEYLEN have some. -/
theorem HostReg.and_fields_of_isRw {r : HostReg} (h : IsRw r) (v : Word) :
    v &&& r.fields = if r = .cfg then v &&& 0x0000FF0F else if r = .keylen then v &&& 0x000000FF else v := by
  have hall : v &&& 0xFFFFFFFF = v := BitVec.and_allOnes
  cases r with
  | cfg | keylen => rfl
  | tstep | inlen | counterLo | counterHi | timeLo | timeHi => exact hall
  | cmd | status | outlen | erridx | code | trunc | dtoff => exact h.elim
  | digest0 | digest1 | digest2 | digest3 | digest4 => exact h.elim

theorem ne_cmd_of_isRw {r : HostReg} (h : IsRw r) : r ≠ .cmd := by
  rintro rfl
  exact h

/-- Settles O14: the port answers the register write of the state with the event taken off. -/
theorem registerWriteStoresItsFieldsAlone : Obligations.RegisterWriteStoresItsFieldsAlone := by
  intro s r v rest hrw hnext
  have hstep := (step_write_reg hnext).trans (portWrite_reg _ (ne_cmd_of_isRw hrw) 4 v)
  obtain ⟨hmem, -, -, -, -, -, -, -, hparams, hphase, hdraws, hport, -⟩ :=
    State.writeReg_frame { s with port := rest } r v
  refine ⟨_, hstep, ?_, ?_, fun r' hr' => ?_, hmem, hparams, hphase, hdraws, hport, rfl⟩
  · rw [State.readReg, State.answer_rawReg, State.rawReg_writeReg_self _ hrw, State.mergeReg_fields,
      HostReg.and_fields_of_isRw hrw]
  · rw [State.answer_rawReg, State.rawReg_writeReg_reserved]
    cases r <;> rfl
  · rw [State.answer_rawReg, State.rawReg_writeReg_of_ne _ hr']
    cases r' <;> rfl

/-! ## Everything a served event can do -/

/-- What serving the event can do to the state it is served in. -/
inductive Served : PortEvent → State → State → Prop where
  /-- A read, an ignored write, a change of power: nothing the engine's registers and buffers hold changes. -/
  | own (e : PortEvent) (s : State) (ph : Phase) (d : Nat) (r : Reply) :
    Served e s { s with phase := ph, draws := d, reply := r }
  /-- The reset input (R320, R321). -/
  | reset {e : PortEvent} (s : State) (ph : Phase) (d : Nat) (r : Reply)
    (he : e = .resetAssert ∨ e = .resetRelease ∨ ∃ v, e = .cmdAbandoned v) :
    Served e s { s.resetRegs ph with draws := d, reply := r }
  /-- A write to CMD (R90). -/
  | command {s t : State} {v : Word} (h : runCommand v (s.answer .written) = .next t) :
    Served (.access (.write (s.params.engineBase + HostReg.cmd.offset) 4 v)) s t
  /-- A write to another register (R63). -/
  | register (s : State) {r : HostReg} (v : Word) (hr : r ≠ .cmd) :
    Served (.access (.write (s.params.engineBase + r.offset) 4 v)) s ((s.writeReg r v).answer .written)
  /-- A write to KEY or IN (R63, R68). -/
  | buffer (s : State) {off n : Nat} (v : Word)
    (hregion : s.params.regionOf off = .key ∨ s.params.regionOf off = .inBuf) (hlegal : legalAccess off n = true) :
    Served (.access (.write (s.params.engineBase + off) n v)) s ((s.writeBuffer off n v).answer .written)

theorem State.readBuffer_own (s : State) (off n : Nat) :
    ∃ d r, s.readBuffer off n = { s with draws := d, reply := r } := by
  by_cases hn : n = 4
  · obtain ⟨d, hd⟩ := s.readSpan_draws_only off 4
    simp only [State.readBuffer, hn, if_true, hd]
    exact ⟨d, _, rfl⟩
  · obtain ⟨d, hd⟩ := s.readByte_draws_only off
    simp only [State.readBuffer, hn, if_false, hd]
    exact ⟨d, _, rfl⟩

theorem portRead_own (s : State) (off n : Nat) : ∃ d r, portRead s off n = { s with draws := d, reply := r } := by
  unfold portRead
  cases s.params.regionOf off with
  | reg r => exact ⟨s.draws, _, rfl⟩
  | key | inBuf | outBuf => exact s.readBuffer_own off n
  | unassigned => exact ⟨s.draws, _, rfl⟩

theorem portWrite_cases {s t : State} {off n : Nat} {v : Word} (hlegal : legalAccess off n = true)
    (h : portWrite s off n v = .next t) : Served (.access (.write (s.params.engineBase + off) n v)) s t := by
  cases hregion : s.params.regionOf off with
  | reg r =>
    obtain rfl := Params.regionOf_eq_reg hregion
    obtain rfl := legalAccess_reg hlegal r.offset_lt
    by_cases hr : r = .cmd
    · subst hr
      rw [portWrite_cmd] at h
      exact .command h
    · rw [portWrite_reg s hr] at h
      cases h
      exact .register s v hr
  | key | inBuf =>
    simp only [portWrite, hregion] at h
    cases h
    exact .buffer s v (by simp [hregion]) hlegal
  | outBuf | unassigned =>
    simp only [portWrite, hregion] at h
    cases h
    exact .own _ s s.phase s.draws .written

theorem serveAccess_cases {a : Access} {s t : State} (h : serveAccess a s = .next t) : Served (.access a) s t := by
  cases a with
  | read addr n =>
    simp only [serveAccess] at h
    split at h
    · cases h
    · next off hoff =>
      split at h
      · cases h
        obtain ⟨d, r, hread⟩ := portRead_own s off n
        rw [hread]
        exact .own _ s s.phase d r
      · cases h
  | write addr n v =>
    simp only [serveAccess] at h
    split at h
    · cases h
    · next off hoff =>
      obtain rfl := Params.windowOffset_eq_some hoff
      split at h
      · next hlegal => exact portWrite_cases hlegal h
      · cases h

theorem serveInReset_cases {a : Access} {s t : State} (h : serveInReset a s = .next t) : Served (.access a) s t := by
  cases a <;>
  · simp only [serveInReset] at h
    split at h
    · cases h
    · cases h
      exact .own _ s s.phase (s.draws + 1) (Config.freeReply s.draws)

theorem serve_cases {e : PortEvent} {s t : State} (h : serve e s = .next t) : Served e s t := by
  have hreset (ph : Phase) (he : e = .resetAssert ∨ e = .resetRelease ∨ ∃ v, e = .cmdAbandoned v) :
      Served e s (s.resetRegs ph) := .reset s ph s.draws s.reply he
  unfold serve at h
  split at h
  · cases h
    exact hreset .inReset (by simp)
  · cases h
  · cases h
    exact .own _ s .unpowered s.draws s.reply
  · cases h
    exact .reset s .inReset (s.draws + 1) (Config.freeReply s.draws) (by simp)
  · cases h
    exact .own _ s s.phase s.draws s.reply
  · cases h
    exact hreset .running (by simp)
  · exact serveAccess_cases h
  · exact serveInReset_cases h

/-- Everything a step can do: idle, or serve the oldest event. -/
theorem step_cases {s t : State} (h : step s = .next t) :
    t = s ∨ ∃ e rest, s.port = e :: rest ∧ Served e { s with port := rest } t := by
  unfold step at h
  split at h
  · unfold idle at h
    split at h
    · cases h
    · cases h
      exact .inl rfl
    · cases h
      exact .inl rfl
  · next e rest hport => exact .inr ⟨e, rest, hport, serve_cases h⟩

/-! ## TIME -/

theorem exec_time {i : Instr} {s t : State} (h : exec i s = .next t) : t.time = s.time := by
  rcases exec_cases h with ⟨e, j, d, rfl, -⟩ | ⟨-, d, rfl⟩ <;> rfl

/-- Everything a CMD write can do: run a command, or raise ILLEGAL_CMD. -/
theorem runCommand_cases {v : Word} {s t : State} (h : runCommand v s = .next t) :
    (∃ i, exec i s = .next t) ∨ t = s.raiseError .illegalCmd 0 := by
  unfold runCommand at h
  split at h
  · next i _ => exact .inl ⟨i, h⟩
  · cases h
    exact .inr rfl

theorem runCommand_time {v : Word} {s t : State} (h : runCommand v s = .next t) : t.time = s.time := by
  rcases runCommand_cases h with ⟨i, hi⟩ | rfl
  · exact exec_time hi
  · rfl

theorem State.writeReg_time_of_ne (s : State) {r : HostReg} (hlo : r ≠ .timeLo) (hhi : r ≠ .timeHi) (v : Word) :
    (s.writeReg r v).time = s.time := by
  cases r <;> simp_all [State.writeReg]

/-- Settles O56: of what a served event can do, only a reset and a write to a half of TIME change TIME. -/
theorem onlyTheHostChangesTime : Obligations.OnlyTheHostChangesTime := by
  intro s t h hne
  rcases step_cases h with rfl | ⟨e, rest, hport, hserved⟩
  · exact absurd rfl hne
  · cases hserved with
    | own => exact absurd rfl hne
    | reset _ _ _ _ he => exact .inr ⟨e, rest, hport, he⟩
    | command hrun => exact absurd (runCommand_time hrun) hne
    | @register _ r v hr =>
      by_cases hlo : r = .timeLo
      · subst hlo
        exact .inl ⟨v, rest, .inl hport⟩
      · by_cases hhi : r = .timeHi
        · subst hhi
          exact .inl ⟨v, rest, .inr hport⟩
        · exact absurd (State.writeReg_time_of_ne _ hlo hhi v) hne
    | buffer => exact absurd rfl hne

end Sys2Proof.Machine
end

section
/-! SUPPORT. The invariant: each part of it after each kind of update, and then after each event. -/

namespace Sys2Proof.Machine

open Sys2Proof.Statements

/-! ## Reserved bits -/

/-- The registers with reserved bits are STATUS, CFG, KEYLEN, TRUNC and DTOFF. -/
theorem State.reservedZero_of {s : State} (hstatus : s.status &&& ~~~HostReg.status.fields = 0)
    (hcfg : s.cfg &&& ~~~HostReg.cfg.fields = 0) (hkeylen : s.keylen &&& ~~~HostReg.keylen.fields = 0)
    (htrunc : s.trunc &&& ~~~HostReg.trunc.fields = 0) (hdtoff : s.dtoff &&& ~~~HostReg.dtoff.fields = 0) :
    s.ReservedZero := by
  intro r
  cases r with
  | status => exact hstatus
  | cfg => exact hcfg
  | keylen => exact hkeylen
  | trunc => exact htrunc
  | dtoff => exact hdtoff
  | cmd => exact BitVec.zero_and
  | tstep | inlen | outlen | erridx | code => exact BitVec.and_zero
  | counterLo | counterHi | timeLo | timeHi => exact BitVec.and_zero
  | digest0 | digest1 | digest2 | digest3 | digest4 => exact BitVec.and_zero

theorem statusWord_reserved (c : Byte) (m e : Bool) : statusWord c m e &&& ~~~HostReg.status.fields = 0 := by
  cases m <;> cases e <;> revert c <;> decide +revert

theorem truncateHs_p_reserved (HS : List Byte) (d : Nat) : (truncateHs HS d).p &&& ~~~HostReg.trunc.fields = 0 := by
  show (_ &&& HostReg.trunc.fields) &&& ~~~HostReg.trunc.fields = 0
  simp [BitVec.and_assoc]

theorem truncateHs_offset_reserved (HS : List Byte) (d : Nat) :
    (truncateHs HS d).offset &&& ~~~HostReg.dtoff.fields = 0 := by
  show (HS.getD 19 0 &&& 0x0F).setWidth 32 &&& ~~~HostReg.dtoff.fields = 0
  rw [BitVec.setWidth_and]
  show (_ &&& HostReg.dtoff.fields) &&& ~~~HostReg.dtoff.fields = 0
  simp [BitVec.and_assoc]

/-! ## Ranges of a truncation -/

theorem truncateHs_offset_lt (HS : List Byte) (d : Nat) : (truncateHs HS d).offset.toNat < 16 := by
  show ((HS.getD 19 0 &&& 0x0F).setWidth 32).toNat < 16
  have : (HS.getD 19 0 &&& 0x0F).toNat ≤ 15 := Nat.and_le_right
  rw [BitVec.toNat_setWidth]
  omega

theorem truncateHs_code_le (HS : List Byte) (d : Nat) : (truncateHs HS d).code.toNat ≤ (truncateHs HS d).p.toNat := by
  show (codeValue (truncValue HS) d).toNat ≤ (truncValue HS).toNat
  rw [codeValue_toNat]
  exact Nat.mod_le _ _

theorem resultsOf_truncation_form {i : Instr} {s : State} {K M : List Byte} {tr : Truncation}
    (h : (resultsOf i s K M).truncation = some tr) : ∃ HS d, tr = truncateHs HS d := by
  cases i with
  | hotpGen | hotpTrunc | totpGen =>
    cases h
    exact ⟨_, _, rfl⟩
  | sha1Hash | hmacSha1 | totpCounter | totpVerify | b32Encode | b32Decode | b32DecodeText => cases h

/-! ## Updates that keep what the invariant says of the results -/

theorem State.StatusAgrees.transfer {s t : State} (h : s.StatusAgrees) (hstatus : t.status = s.status)
    (houtlen : t.outlen = s.outlen) (herridx : t.erridx = s.erridx) : t.StatusAgrees := by
  obtain ⟨herr, hrange, hmatch, hout, hidx⟩ := h
  constructor <;> simp only [State.errFlag, State.matchFlag, State.errCode, hstatus, houtlen, herridx] <;> assumption

/-- The invariant where STATUS, the lengths and the truncation results stay. -/
theorem State.Inv.transfer {s t : State} (h : s.Inv) (hparams : t.params = s.params) (hmem : t.mem.wf)
    (hbytes : t.BytesInPlace) (hreserved : ∀ r : HostReg, t.rawReg r &&& ~~~r.fields = s.rawReg r &&& ~~~r.fields)
    (hstatus : t.status = s.status) (houtlen : t.outlen = s.outlen) (herridx : t.erridx = s.erridx)
    (hcode : t.code = s.code) (htrunc : t.trunc = s.trunc) (hdtoff : t.dtoff = s.dtoff) : t.Inv where
  paramsWf := hparams ▸ h.paramsWf
  memWf := hmem
  bytesInPlace := hbytes
  reservedZero r := (hreserved r).trans (h.reservedZero r)
  statusAgrees := h.statusAgrees.transfer hstatus houtlen herridx
  resultsInRange := by
    obtain ⟨hc, hct, ht, hd, ho⟩ := h.resultsInRange
    constructor <;> simp only [hcode, htrunc, hdtoff, houtlen, hparams] <;> assumption

/-- The model's own fields do not matter to the invariant. -/
theorem State.Inv.own {s : State} (h : s.Inv) (ph : Phase) (d : Nat) (port : List PortEvent) (r : Reply) :
    State.Inv { s with phase := ph, draws := d, port := port, reply := r } :=
  h.transfer rfl h.memWf h.bytesInPlace (fun reg => by cases reg <;> rfl) rfl rfl rfl rfl rfl rfl

theorem State.Inv.writeReg {s : State} (h : s.Inv) (r : HostReg) (v : Word) : (s.writeReg r v).Inv := by
  obtain ⟨hmem, hstatus, houtlen, herridx, hcode, htrunc, hdtoff, -, hparams, -⟩ := s.writeReg_frame r v
  refine h.transfer hparams (hmem ▸ h.memWf) ?_ (s.rawReg_writeReg_reserved r · v) hstatus houtlen herridx
    hcode htrunc hdtoff
  unfold State.BytesInPlace
  rw [hmem, hparams, houtlen]
  exact h.bytesInPlace

/-- A write of a legal width to KEY or IN stays in the buffer, whose end is a multiple of four (R5, R65). -/
theorem State.Inv.writeBuffer {s : State} (h : s.Inv) {off n : Nat} (v : Word)
    (hregion : s.params.regionOf off = .key ∨ s.params.regionOf off = .inBuf) (hlegal : legalAccess off n = true) :
    (s.writeBuffer off n v).Inv := by
  refine h.transfer rfl (State.writeBuffer_mem_wf off n v h.memWf) (fun c hc => ?_) (fun r => by cases r <;> rfl)
    rfl rfl rfl rfl rfl rfl
  rcases Memory.mem_writeSpan hc with hspan | hold
  · have hlen : ((lanes v).take n).length ≤ n := List.length_take_le _ _
    have hmul : s.params.inBufBytes % 4 = 0 := h.paramsWf.1
    rw [legalAccess_iff] at hlegal
    rcases hregion with hr | hr
    · have := Params.regionOf_eq_key hr
      exact .inl (by simp only [Config.keyBase, Config.keyBytes] at this ⊢; omega)
    · have := Params.regionOf_eq_inBuf hr
      exact .inr (.inl (by simp only [Config.inBase, State.writeBuffer_params] at this ⊢; omega))
  · exact h.bytesInPlace c hold

/-! ## The epilogues -/

theorem ErrorName.errCode_le (e : ErrorName) : e.errCode.toNat ≤ 0x07 := by cases e <;> decide

/-- The error epilogue, where only the data errors report an index (R291). -/
theorem State.Inv.raiseError {s : State} (h : s.Inv) {e : ErrorName} {j : Nat}
    (hidx : j ≠ 0 → e = .invalidChar ∨ e = .decodeFailure) : (s.raiseError e j).Inv where
  paramsWf := h.paramsWf
  memWf := State.raiseError_mem_wf e j h.memWf
  bytesInPlace c hc := by
    obtain ⟨hold, hout⟩ := Memory.mem_forget.mp hc
    rcases h.bytesInPlace c hold with hkey | hin | hlt
    · exact .inl hkey
    · exact .inr (.inl hin)
    · have hle := h.resultsInRange.outlenLe
      rw [State.outEnd_eq] at hout
      omega
  reservedZero := State.reservedZero_of (statusWord_reserved _ _ _) (h.reservedZero .cfg) (h.reservedZero .keylen)
    (h.reservedZero .trunc) (h.reservedZero .dtoff)
  statusAgrees :=
    { errIffCode := by simpa using e.errCode_ne_zero
      codeInRange := by simpa using e.errCode_le
      matchOnlyOnSuccess := by simp
      noOutputOnError := fun _ => rfl
      idxOnlyOnDataError := fun hne => by
        have hj : j ≠ 0 := fun hj => hne (by simp [hj])
        rw [State.raiseError_errCode]
        exact (hidx hj).imp (congrArg ErrorName.errCode) (congrArg ErrorName.errCode) }
  resultsInRange :=
    { codeLt := h.resultsInRange.codeLt
      codeLeTrunc := h.resultsInRange.codeLeTrunc
      truncLt := h.resultsInRange.truncLt
      dtoffLt := h.resultsInRange.dtoffLt
      outlenLe := Nat.zero_le _ }

theorem Results.write_outlen {r : Results} (hlt : r.out.length < 2 ^ 32) (s : State) :
    (r.write s).outlen.toNat = r.out.length := by
  show (BitVec.ofNat 32 r.out.length).toNat = _
  rw [BitVec.toNat_ofNat, Nat.mod_eq_of_lt hlt]

/-- The result registers of a success: either those of a truncation or those of the state before. -/
theorem Results.write_truncation (r : Results) (s : State) :
    (∃ tr, r.truncation = some tr ∧ (r.write s).code = tr.code ∧ (r.write s).trunc = tr.p ∧
        (r.write s).dtoff = tr.offset) ∨
      ((r.write s).code = s.code ∧ (r.write s).trunc = s.trunc ∧ (r.write s).dtoff = s.dtoff) := by
  cases h : r.truncation with
  | none => exact .inr (Results.write_truncationKept h s s.draws)
  | some tr =>
    refine .inl ⟨tr, rfl, ?_⟩
    show r.truncation.elim _ _ = _ ∧ r.truncation.elim _ _ = _ ∧ r.truncation.elim _ _ = _
    rw [h]
    exact ⟨rfl, rfl, rfl⟩

theorem Results.write_bytesInPlace {r : Results} {s : State} (h : s.Inv)
    (hfit : r.out.length ≤ s.params.outBufBytes) : (r.write s).BytesInPlace := by
  intro c hc
  have hlen := Results.write_outlen (Params.lt_of_fits h.paramsWf hfit) s
  obtain ⟨hspan, hout⟩ := Memory.mem_forget.mp hc
  have hout' : c.1 < Config.outBase + r.out.length ∨ Config.outBase + s.params.outBufBytes ≤ c.1 := by
    rw [← hlen]
    exact hout
  rcases Memory.mem_writeSpan hspan with hnew | hold
  · exact .inr (.inr (by rw [hlen]; exact hnew))
  · rcases h.bytesInPlace c hold with hkey | hin | hold'
    · exact .inl hkey
    · exact .inr (.inl hin)
    · have hle := h.resultsInRange.outlenLe
      exact .inr (.inr (by omega))

section
variable {r : Results} (hform : ∀ tr, r.truncation = some tr → ∃ HS d, tr = truncateHs HS d)
include hform

theorem Results.write_truncation_reserved {s : State} (h : s.ReservedZero) :
    (r.write s).trunc &&& ~~~HostReg.trunc.fields = 0 ∧ (r.write s).dtoff &&& ~~~HostReg.dtoff.fields = 0 := by
  rcases r.write_truncation s with ⟨tr, htr, -, hp, ho⟩ | ⟨-, hp, ho⟩
  · obtain ⟨HS, d, rfl⟩ := hform tr htr
    rw [hp, ho]
    exact ⟨truncateHs_p_reserved HS d, truncateHs_offset_reserved HS d⟩
  · rw [hp, ho]
    exact ⟨h .trunc, h .dtoff⟩

theorem Results.write_resultsInRange {s : State} (h : s.ResultsInRange)
    (hout : (r.write s).outlen.toNat ≤ s.params.outBufBytes) : (r.write s).ResultsInRange := by
  have hranges : (r.write s).code.toNat ≤ (r.write s).trunc.toNat ∧ (r.write s).trunc.toNat < 2 ^ 31 ∧
      (r.write s).dtoff.toNat < 16 := by
    rcases r.write_truncation s with ⟨tr, htr, hc, hp, ho⟩ | ⟨hc, hp, ho⟩
    · obtain ⟨HS, d, rfl⟩ := hform tr htr
      rw [hc, hp, ho]
      exact ⟨truncateHs_code_le HS d, truncValue_lt HS, truncateHs_offset_lt HS d⟩
    · rw [hc, hp, ho]
      exact ⟨h.codeLeTrunc, h.truncLt, h.dtoffLt⟩
  obtain ⟨hcode, htrunc, hdtoff⟩ := hranges
  exact ⟨lt_of_le_of_lt hcode htrunc, hcode, htrunc, hdtoff, hout⟩

/-- The success epilogue on an output that fits OUT and on results that are those of a truncation. -/
theorem State.Inv.write {s : State} (h : s.Inv) (hfit : r.out.length ≤ s.params.outBufBytes) : (r.write s).Inv where
  paramsWf := h.paramsWf
  memWf := State.succeed_mem_wf _ (State.putOut_mem_wf (s := r.putRegs s) _ h.memWf)
  bytesInPlace := Results.write_bytesInPlace h hfit
  reservedZero :=
    have hres := Results.write_truncation_reserved hform h.reservedZero
    State.reservedZero_of (statusWord_reserved _ _ _) (h.reservedZero .cfg) (h.reservedZero .keylen) hres.1 hres.2
  statusAgrees := ⟨by simp, by simp, by simp, by simp, fun hne => absurd rfl hne⟩
  resultsInRange := Results.write_resultsInRange hform h.resultsInRange
    (by rw [Results.write_outlen (Params.lt_of_fits h.paramsWf hfit)]; exact hfit)

end

/-! ## Reset -/

theorem State.reset_statusAgrees : State.reset.StatusAgrees :=
  ⟨by decide, by decide, by decide, by decide, by decide⟩

theorem State.reset_resultsInRange : State.reset.ResultsInRange :=
  ⟨by decide, by decide, by decide, by decide, by decide⟩

theorem State.reset_reservedZero : State.reset.ReservedZero := fun r => by cases r <;> decide

/-- The reset input leaves the invariant whatever the state before, if the parameters are well-formed. -/
theorem State.resetRegs_inv {s : State} (hw : s.params.wf) (ph : Phase) : (s.resetRegs ph).Inv where
  paramsWf := hw
  memWf := Memory.wf_nil
  bytesInPlace c hc := by cases hc
  reservedZero r := by
    rw [State.resetRegs_rawReg]
    exact State.reset_reservedZero r
  statusAgrees := State.reset_statusAgrees.transfer rfl rfl rfl
  resultsInRange :=
    { codeLt := State.reset_resultsInRange.codeLt
      codeLeTrunc := State.reset_resultsInRange.codeLeTrunc
      truncLt := State.reset_resultsInRange.truncLt
      dtoffLt := State.reset_resultsInRange.dtoffLt
      outlenLe := Nat.zero_le _ }

/-- Settles O53: the reset state is what the reset input makes of itself, and its parameters are well-formed. -/
theorem resetMeetsTheInvariant : Obligations.ResetMeetsTheInvariant :=
  State.resetRegs_inv (s := State.reset) (by decide) .running

/-- Settles O6: each register's reset column, masked to its fields, and the empty memory. -/
theorem resetLeavesTheResetValues : Obligations.ResetLeavesTheResetValues :=
  ⟨fun r => by cases r <;> decide, fun a => Memory.read?_nil a, by decide, by decide, by decide, by decide, by decide⟩

/-! ## Every step -/

theorem exec_keeps_inv {i : Instr} {s t : State} (h : s.Inv) (hexec : exec i s = .next t) : t.Inv := by
  have hdraws (d : Nat) : State.Inv { s with draws := d } := h.own s.phase d s.port s.reply
  rcases exec_cases hexec with ⟨e, j, d, rfl, hidx⟩ | ⟨hpass, d, rfl⟩
  · exact (hdraws d).raiseError hidx
  · exact (hdraws d).write (fun _ => resultsOf_truncation_form)
      (resultsOf_out_fits h.paramsWf hpass (State.inBytes_length_le h.paramsWf hpass))

theorem runCommand_keeps_inv {v : Word} {s t : State} (h : s.Inv) (hrun : runCommand v s = .next t) : t.Inv := by
  rcases runCommand_cases hrun with ⟨i, hexec⟩ | rfl
  · exact exec_keeps_inv h hexec
  · exact h.raiseError fun hj => absurd rfl hj

theorem State.Inv.answer {s : State} (h : s.Inv) (r : Reply) : (s.answer r).Inv := h.own s.phase s.draws s.port r

theorem Served.keeps_inv {e : PortEvent} {s t : State} (hserved : Served e s t) (h : s.Inv) : t.Inv := by
  cases hserved with
  | own _ _ ph d r => exact h.own ph d s.port r
  | reset _ ph d r => exact (State.resetRegs_inv h.paramsWf ph).own ph d s.port r
  | command hrun => exact runCommand_keeps_inv (h.answer _) hrun
  | register _ v hr => exact (h.writeReg _ v).answer _
  | buffer _ v hregion hlegal => exact (h.writeBuffer v hregion hlegal).answer _

/-- Settles O52: taking an event off the queue keeps the invariant, and so does everything serving it can do. -/
theorem everyStepKeepsTheInvariant : Obligations.EveryStepKeepsTheInvariant := by
  intro s t h hstep
  rcases step_cases hstep with rfl | ⟨e, rest, -, hserved⟩
  · exact h
  · exact hserved.keeps_inv (h.own s.phase s.draws rest s.reply)

end Sys2Proof.Machine
end

section
/-! SUPPORT. Reads of the byte memory: what each byte of a read span is, how many draws it costs, and the lanes of a
word. -/

namespace Sys2Proof.Machine

open Sys2Proof.Statements

/-! ## The bytes without a value -/

theorem unspecifiedIn_congr {s s' : State} (h : s'.mem = s.mem) (a n : Nat) :
    unspecifiedIn s' a n = unspecifiedIn s a n := by
  rw [unspecifiedIn, unspecifiedIn, h]

@[simp] theorem unspecifiedIn_zero (s : State) (a : Nat) : unspecifiedIn s a 0 = 0 := rfl

/-- The first byte of a span counts by itself, the others as a span of their own. -/
theorem unspecifiedIn_succ (s : State) (a n : Nat) :
    unspecifiedIn s a (n + 1) = (if (s.mem.read? a).isNone then 1 else 0) + unspecifiedIn s (a + 1) n := by
  have htail : unspecifiedIn s (a + 1) n =
      ((List.range n).filter fun j => (s.mem.read? (a + (j + 1))).isNone).length := by
    simp only [unspecifiedIn, Nat.add_assoc, Nat.add_comm 1]
  rw [htail, unspecifiedIn, List.range_succ_eq_map, List.filter_cons, List.filter_map]
  split <;> simp_all [Function.comp_def, Nat.add_comm]

/-! ## Reads -/

/-- A byte without a value is the next draw, and costs it. -/
theorem State.readByte_eq (s : State) (a : Nat) :
    s.readByte a = ((s.mem.read? a).getD (Config.freeByte s.draws),
      { s with draws := s.draws + if (s.mem.read? a).isNone then 1 else 0 }) := by
  cases h : s.mem.read? a with
  | some b => simp [State.readByte_of_some h]
  | none => simp [State.readByte_of_none h]

theorem State.readSpan_state (s : State) (a n : Nat) :
    (s.readSpan a n).2 = { s with draws := s.draws + unspecifiedIn s a n } := by
  induction n generalizing s a with
  | zero => rfl
  | succ n ih =>
    rw [State.readSpan_succ, ih, unspecifiedIn_congr (s.readByte_mem a), State.readByte_eq, unspecifiedIn_succ,
      Nat.add_assoc]

/-- Each byte of a span is its value, or the draw numbered by the bytes without a value before it. -/
theorem State.readSpan_getElem?_eq (s : State) {a n i : Nat} (hi : i < n) :
    (s.readSpan a n).1[i]? =
      some ((s.mem.read? (a + i)).getD (Config.freeByte (s.draws + unspecifiedIn s a i))) := by
  induction n generalizing s a i with
  | zero => omega
  | succ n ih =>
    rw [State.readSpan_succ]
    cases i with
    | zero => simp [State.readByte_eq]
    | succ i =>
      rw [List.getElem?_cons_succ, ih _ (by omega), unspecifiedIn_congr (s.readByte_mem a), s.readByte_mem,
        State.readByte_eq, unspecifiedIn_succ, show a + 1 + i = a + (i + 1) by omega, Nat.add_assoc s.draws]

/-- What a byte that was read is. -/
theorem State.readSpan_byte {s : State} {a n i : Nat} {b : Byte} (h : (s.readSpan a n).1[i]? = some b) :
    (∀ v, s.mem.read? (a + i) = some v → b = v) ∧
      (s.mem.read? (a + i) = none → b = Config.freeByte (s.draws + unspecifiedIn s a i)) := by
  have hi : i < n := by simpa using (List.getElem?_eq_some_iff.mp h).1
  rw [s.readSpan_getElem?_eq hi, Option.some.injEq] at h
  refine ⟨fun v hv => ?_, fun hnone => ?_⟩
  · rw [← h, hv, Option.getD_some]
  · rw [← h, hnone, Option.getD_none]

/-- Settles O18: each byte by its place in the span, and the draws by the bytes that have no value. -/
theorem operandReadTakesValuesOrFreshDraws : Obligations.OperandReadTakesValuesOrFreshDraws := by
  intro s a n
  refine ⟨s.readSpan_length a n, fun i b hi hb => State.readSpan_getElem? hi hb, fun i hi hnone => ?_,
    s.readSpan_state a n⟩
  rw [s.readSpan_getElem?_eq hi, hnone, Option.getD_none]

/-! ## The lanes of a word (R68) -/

theorem extractLsb'_eq_ofNat (w : Word) (k : Nat) : w.extractLsb' k 8 = BitVec.ofNat 8 (w.toNat / 2 ^ k) := by
  rw [← Nat.shiftRight_eq_div_pow]
  rfl

theorem lanes_getElem? (v : Word) {j : Nat} (hj : j < 4) :
    (lanes v)[j]? = some (BitVec.ofNat 8 (v.toNat / 256 ^ j)) := by
  rw [show 256 ^ j = 2 ^ (8 * j) from (Nat.pow_mul 2 8 j).symm, ← extractLsb'_eq_ofNat]
  match j, hj with
  | 0, _ | 1, _ | 2, _ | 3, _ => rfl

/-- Lane `j` of the word of four bytes is byte `j`. -/
theorem extractLsb'_ofLanes (S : List Byte) {j : Nat} (hj : j < 4) :
    (ofLanes S).extractLsb' (8 * j) 8 = S.getD j 0 := by
  have hdrop {k n : Nat} (hi : BitVec n) (lo : Byte) : (hi ++ lo).extractLsb' (k + 8) 8 = hi.extractLsb' k 8 :=
    BitVec.extractLsb'_append_eq_of_le (Nat.le_add_left 8 k)
  match j, hj with
  | 0, _ => exact BitVec.extractLsb'_append_eq_right
  | 1, _ => exact (hdrop _ _).trans BitVec.extractLsb'_append_eq_right
  | 2, _ => exact ((hdrop _ _).trans (hdrop _ _)).trans BitVec.extractLsb'_append_eq_right
  | 3, _ => exact ((hdrop _ _).trans (hdrop _ _)).trans BitVec.extractLsb'_append_eq_left

end Sys2Proof.Machine
end

section
/-! SUPPORT. Where the buffers and the unassigned offsets lie, and what a legal access to each region does. -/

namespace Sys2Proof.Machine

open Sys2Proof.Statements

/-! ## The regions of the window (R61) -/

/-- The offset lies in KEY, in IN or in OUT. -/
def InBuffer (s : State) (off : Nat) : Prop :=
  (0x100 ≤ off ∧ off < 0x140) ∨ (0x1000 ≤ off ∧ off < 0x1000 + s.params.inBufBytes) ∨ InOut s off

/-- The offset names no register and lies in no buffer. -/
def IsUnassigned (s : State) (off : Nat) : Prop :=
  off = 0x2C ∨ (0x54 ≤ off ∧ off < 0x100) ∨ (0x140 ≤ off ∧ off < 0x1000) ∨
    (0x1000 + s.params.inBufBytes ≤ off ∧ off < 0x2000) ∨
    (0x2000 + 8 * ((s.params.inBufBytes + 4) / 5) ≤ off ∧ off < 0x4000)

/-- The map above the registers. -/
theorem Params.regionOf_of_regEnd_le (p : Params) {off : Nat} (h : 0x100 ≤ off) :
    p.regionOf off =
      if off < 0x140 then .key
      else if off < 0x1000 then .unassigned
      else if off < 0x1000 + p.inBufBytes then .inBuf
      else if off < 0x2000 then .unassigned
      else if off < 0x2000 + 8 * ((p.inBufBytes + 4) / 5) then .outBuf
      else .unassigned :=
  if_neg (Nat.not_lt.mpr h)

theorem Params.regionOf_key (p : Params) {off : Nat} (h : 0x100 ≤ off ∧ off < 0x140) : p.regionOf off = .key := by
  rw [p.regionOf_of_regEnd_le h.1, if_pos h.2]

theorem Params.regionOf_inBuf (p : Params) {off : Nat} (h : 0x1000 ≤ off ∧ off < 0x1000 + p.inBufBytes) :
    p.regionOf off = .inBuf := by
  rw [p.regionOf_of_regEnd_le (by omega), if_neg (by omega), if_neg (by omega), if_pos h.2]

theorem regionOf_outBuf {s : State} (hw : s.params.wf) {off : Nat} (h : InOut s off) :
    s.params.regionOf off = .outBuf := by
  obtain ⟨hlo, hhi⟩ := h
  have hin : s.params.inBufBytes ≤ 4096 := hw.2.2.1
  rw [s.params.regionOf_of_regEnd_le (by omega), if_neg (by omega), if_neg (by omega), if_neg (by omega),
    if_neg (by omega), if_pos hhi]

theorem HostReg.offset_assigned (r : HostReg) : r.offset ≠ 0x2C ∧ r.offset < 0x54 := by cases r <;> decide

theorem HostReg.ofOffset_unassigned {off : Nat} (h : off = 0x2C ∨ 0x54 ≤ off) : HostReg.ofOffset off = none := by
  refine Option.eq_none_iff_forall_ne_some.mpr fun r hr => ?_
  have := r.offset_assigned
  rw [← HostReg.ofOffset_eq_some hr] at this
  omega

theorem regionOf_unassigned {s : State} (hw : s.params.wf) {off : Nat} (h : IsUnassigned s off) :
    s.params.regionOf off = .unassigned := by
  have hin : s.params.inBufBytes ≤ 4096 := hw.2.2.1
  have hreg (hlt : off < 0x100) (hoff : off = 0x2C ∨ 0x54 ≤ off) : s.params.regionOf off = .unassigned := by
    rw [Params.regionOf, if_pos hlt, HostReg.ofOffset_unassigned hoff]
  rcases h with h | h | h | h | h
  · exact hreg (by omega) (.inl h)
  · exact hreg h.2 (.inr h.1)
  · rw [s.params.regionOf_of_regEnd_le (by omega), if_neg (by omega), if_pos h.2]
  · rw [s.params.regionOf_of_regEnd_le (by omega), if_neg (by omega), if_neg (by omega), if_neg (by omega), if_pos h.2]
  · rw [s.params.regionOf_of_regEnd_le (by omega), if_neg (by omega), if_neg (by omega), if_neg (by omega),
      if_neg (by omega), if_neg (Nat.not_lt.mpr h.1)]

theorem IsUnassigned.lt_window {s : State} (hw : s.params.wf) {off : Nat} (h : IsUnassigned s off) :
    off < 0x4000 := by
  have hin : s.params.inBufBytes ≤ 4096 := hw.2.2.1
  unfold IsUnassigned at h
  omega

theorem InBuffer.lt_window {s : State} (hw : s.params.wf) {off : Nat} (h : InBuffer s off) :
    off < 0x4000 := by
  have hin : s.params.inBufBytes ≤ 4096 := hw.2.2.1
  unfold InBuffer InOut at h
  omega

/-- Buffers begin beyond the registers, so a single byte of one may be accessed (R64). -/
theorem InBuffer.legalAccess {s : State} {off n : Nat} (h : InBuffer s off) (hn : (n = 4 ∧ off % 4 = 0) ∨ n = 1) :
    legalAccess off n = true := by
  have hlo : 0x100 ≤ off := by
    unfold InBuffer InOut at h
    omega
  exact (legalAccess_iff off n).mpr (hn.imp_right fun hbyte => ⟨hbyte, hlo⟩)

/-- The buffers' ends are multiples of 4, so an aligned word whose first byte lies in a buffer does so whole (R5). -/
theorem InBuffer.add {s : State} (hw : s.params.wf) {off j : Nat} (h : InBuffer s off) (halign : off % 4 = 0)
    (hj : j < 4) : InBuffer s (off + j) := by
  have hmul := hw.1
  unfold InBuffer InOut at h ⊢
  omega

/-! ## What the port does at each region -/

theorem portRead_reg (s : State) (r : HostReg) (n : Nat) :
    portRead s r.offset n = s.answer (.word (s.readReg r)) := by
  simp only [portRead, s.params.regionOf_offset]

theorem portRead_buffer {s : State} (hw : s.params.wf) {off : Nat} (h : InBuffer s off) (n : Nat) :
    portRead s off n = s.readBuffer off n := by
  rcases h with h | h | h
  · simp only [portRead, s.params.regionOf_key h]
  · simp only [portRead, s.params.regionOf_inBuf h]
  · simp only [portRead, regionOf_outBuf hw h]

theorem portRead_unassigned {s : State} (hw : s.params.wf) {off : Nat} (h : IsUnassigned s off) (n : Nat) :
    portRead s off n = s.answer (if n = 4 then .word 0 else .byte 0) := by
  simp only [portRead, regionOf_unassigned hw h]

theorem portWrite_buffer (s : State) {off : Nat}
    (h : (0x100 ≤ off ∧ off < 0x140) ∨ (0x1000 ≤ off ∧ off < 0x1000 + s.params.inBufBytes)) (n : Nat) (v : Word) :
    portWrite s off n v = .next ((s.writeBuffer off n v).answer .written) := by
  rcases h with h | h
  · simp only [portWrite, s.params.regionOf_key h]
  · simp only [portWrite, s.params.regionOf_inBuf h]

theorem portWrite_ignored {s : State} {off : Nat}
    (h : s.params.regionOf off = .outBuf ∨ s.params.regionOf off = .unassigned) (n : Nat) (v : Word) :
    portWrite s off n v = .next (s.answer .written) := by
  rcases h with h | h <;> simp only [portWrite, h]

/-! ## Reads of a buffer (R62, R79) -/

/-- A byte is answered as its value or as the next draw. -/
theorem State.readBuffer_byte (s : State) (off : Nat) :
    s.readBuffer off 1 =
      { s with
        draws := s.draws + unspecifiedIn s off 1
        reply := .byte ((s.mem.read? off).getD (Config.freeByte s.draws)) } := by
  have hdraws := unspecifiedIn_succ s off 0
  rw [unspecifiedIn_zero, Nat.add_zero] at hdraws
  rw [State.readBuffer, if_neg (by decide), State.readByte_eq, hdraws]
  rfl

theorem State.readBuffer_byte_of_some {s : State} {off : Nat} {b : Byte} (h : s.mem.read? off = some b) :
    s.readBuffer off 1 = s.answer (.byte b) := by
  simp [State.readBuffer, State.readByte_of_some h]

/-- Four bytes are answered as one word. -/
theorem State.readBuffer_word (s : State) (off : Nat) :
    s.readBuffer off 4 =
      { s with
        draws := s.draws + unspecifiedIn s off 4
        reply := .word (ofLanes (s.readSpan off 4).1) } := by
  simp only [State.readBuffer, if_true, State.readSpan_state]
  rfl

/-! ## An access inside the window -/

theorem serveAccess_read (s : State) {off : Nat} (hoff : off < 0x4000) (n : Nat) :
    serveAccess (.read (s.params.engineBase + off) n) s =
      if legalAccess off n then .next (portRead s off n) else .fault .busError := by
  simp only [serveAccess, s.params.windowOffset_base_add hoff]

theorem serveAccess_write (s : State) {off : Nat} (hoff : off < 0x4000) (n : Nat) (v : Word) :
    serveAccess (.write (s.params.engineBase + off) n v) s =
      if legalAccess off n then portWrite s off n v else .fault .busError := by
  simp only [serveAccess, s.params.windowOffset_base_add hoff]

section
variable {s : State} {off n : Nat} {v : Word} {rest : List PortEvent} (hoff : off < 0x4000)
include hoff

theorem step_read (h : Next s (.read (s.params.engineBase + off) n) rest) (hlegal : legalAccess off n = true) :
    step s = .next (portRead { s with port := rest } off n) := by
  rw [step_access h]
  exact (serveAccess_read { s with port := rest } hoff n).trans (if_pos hlegal)

theorem step_write (h : Next s (.write (s.params.engineBase + off) n v) rest) (hlegal : legalAccess off n = true) :
    step s = portWrite { s with port := rest } off n v := by
  rw [step_access h]
  exact (serveAccess_write { s with port := rest } hoff n v).trans (if_pos hlegal)

/-- A read and a write of a forbidden width or alignment fault alike (R298). -/
theorem step_forbidden {a : Access} (h : Next s a rest)
    (ha : a = .read (s.params.engineBase + off) n ∨ ∃ v, a = .write (s.params.engineBase + off) n v)
    (hillegal : ¬ legalAccess off n = true) : step s = .fault .busError := by
  rw [step_access h]
  rcases ha with rfl | ⟨v, rfl⟩
  · exact (serveAccess_read { s with port := rest } hoff n).trans (if_neg hillegal)
  · exact (serveAccess_write { s with port := rest } hoff n v).trans (if_neg hillegal)

end

/-! ## The statements about single accesses -/

/-- Settles O11: the port answers 0 at an unassigned offset, or ignores the write. -/
theorem unassignedReadsZeroAndIgnoresWrites : Obligations.UnassignedReadsZeroAndIgnoresWrites := by
  intro s n off rest (hun : IsUnassigned s off) hw hn
  have hoff := hun.lt_window hw
  have hlegal := (legalAccess_iff off n).mpr hn
  refine ⟨fun hnext => ?_, fun v hnext => ?_⟩
  · rw [step_read hoff hnext hlegal, portRead_unassigned (s := { s with port := rest }) hw hun]
    rfl
  · exact (step_write hoff hnext hlegal).trans
      (portWrite_ignored (s := { s with port := rest }) (.inr (regionOf_unassigned hw hun)) n v)

/-- Settles O13: a read-only register stores nothing, and the port ignores a write to OUT. -/
theorem writeToReadOnlyIsIgnored : Obligations.WriteToReadOnlyIsIgnored := by
  refine ⟨fun s r v rest hro hcmd hnext => ?_, fun s n off v rest hw hout hn hnext => ?_⟩
  · rw [step_write_reg hnext, portWrite_reg _ hcmd, State.writeReg_of_not_isRw _ hro]
    rfl
  · have hbuf : InBuffer s off := .inr (.inr hout)
    exact (step_write (hbuf.lt_window hw) hnext (hbuf.legalAccess hn)).trans
      (portWrite_ignored (s := { s with port := rest }) (.inl (regionOf_outBuf hw hout)) n v)

/-- Settles O15: the write is a span write of the value's first `n` lanes. -/
theorem bufferWriteStoresItsLanesAlone : Obligations.BufferWriteStoresItsLanesAlone := by
  intro s n off v rest hw hregion hn hnext
  have hbuf : InBuffer s off := hregion.elim .inl (.inr ∘ .inl)
  have hlen : ((lanes v).take n).length = n := by
    rw [List.length_take]
    show min n 4 = n
    omega
  refine ⟨_, (step_write (hbuf.lt_window hw) hnext (hbuf.legalAccess hn)).trans
    (portWrite_buffer { s with port := rest } hregion n v), rfl, fun j hj => ?_, fun a ha => ?_⟩
  · show (s.mem.writeSpan off ((lanes v).take n)).read? (off + j) = _
    rw [Memory.read?_writeSpan, hlen, if_pos (by omega), Nat.add_sub_cancel_left, List.getElem?_take_of_lt hj,
      lanes_getElem? v (by omega)]
  · show (s.mem.writeSpan off ((lanes v).take n)).read? a = _
    rw [Memory.read?_writeSpan, hlen, if_neg (by omega)]

/-- Settles O10: a read answers and draws; at a buffer it draws once for each byte without a value. -/
theorem readReturnsTheValueAndChangesNothing : Obligations.ReadReturnsTheValueAndChangesNothing := by
  intro s n off rest hw hnext hoff hn
  have hstep := step_read hoff hnext ((legalAccess_iff off n).mpr hn)
  obtain ⟨d, reply, hown⟩ := portRead_own { s with port := rest } off n
  rw [hown] at hstep
  refine ⟨_, d, hstep, rfl, fun r hr => ?_, fun hbuf => ?_⟩
  · rw [hr, portRead_reg] at hown
    obtain rfl : _ = reply := congrArg State.reply hown
    obtain rfl : s.draws = d := congrArg State.draws hown
    exact ⟨rfl, rfl⟩
  · have hbuf : InBuffer s off := by
      rcases hbuf with ⟨i, hi, rfl⟩ | ⟨i, hi, rfl⟩ | hout
      · exact .inl (by omega)
      · exact .inr (.inl (by omega))
      · exact .inr (.inr hout)
    rw [portRead_buffer (s := { s with port := rest }) hw hbuf] at hown
    rcases hn with ⟨rfl, -⟩ | ⟨rfl, -⟩
    · rw [State.readBuffer_word] at hown
      obtain rfl : _ = reply := congrArg State.reply hown
      obtain rfl : s.draws + unspecifiedIn s off 4 = d := congrArg State.draws hown
      refine ⟨rfl, by simp, by simp, fun _ => ⟨_, _, _, _, rfl, fun j b hb => ?_⟩⟩
      exact State.readSpan_byte (s := { s with port := rest }) (n := 4) hb
    · rw [State.readBuffer_byte] at hown
      obtain rfl : _ = reply := congrArg State.reply hown
      obtain rfl : s.draws + unspecifiedIn s off 1 = d := congrArg State.draws hown
      refine ⟨rfl, fun b _ hb => ?_, fun _ hnone => ?_, by simp⟩
      · simp [hb]
      · simp [hnone]

/-- Settles O16: both reads answer the byte's value, the one as the word's lane `j`. -/
theorem byteReadIsALaneOfTheWordRead : Obligations.ByteReadIsALaneOfTheWordRead := by
  intro s off j w rest t hw (hbuf : InBuffer s off) halign hj hsome hnext hstep hreply
  obtain ⟨b, hb⟩ := Option.isSome_iff_exists.mp (hsome j hj)
  have hword : ofLanes (({ s with port := rest } : State).readSpan off 4).1 = w := by
    rw [step_read (hbuf.lt_window hw) hnext (hbuf.legalAccess (.inl ⟨rfl, halign⟩)),
      portRead_buffer (s := { s with port := rest }) hw hbuf, State.readBuffer_word] at hstep
    cases hstep
    cases hreply
    rfl
  have hlane : BitVec.ofNat 8 (w.toNat / 2 ^ (8 * j)) = b := by
    rw [← hword, ← extractLsb'_eq_ofNat, extractLsb'_ofLanes _ hj, List.getD_eq_getElem?_getD,
      State.readSpan_getElem? (s := { s with port := rest }) hj hb, Option.getD_some]
  have hbuf' := hbuf.add hw halign hj
  have hread := step_read (s := { s with port := .access (.read (s.params.engineBase + (off + j)) 1) :: rest })
    (hbuf'.lt_window hw) ⟨hnext.1, rfl⟩ (hbuf'.legalAccess (.inr rfl))
  rw [hread, portRead_buffer (s := { s with port := rest }) hw hbuf',
    State.readBuffer_byte_of_some (s := { s with port := rest }) hb, hlane]
  rfl

end Sys2Proof.Machine
end

section
/-! SUPPORT. What no event but one of reset or power changes, and runs of a queue of well-formed events. -/

namespace Sys2Proof.Machine

open Sys2Proof.Statements

/-! ## Accesses keep the phase, the parameters and the queue -/

/-- Phase, parameters and queue unchanged. -/
structure PortKept (s t : State) : Prop where
  phase : t.phase = s.phase
  params : t.params = s.params
  port : t.port = s.port

theorem exec_portKept {i : Instr} {s t : State} (h : exec i s = .next t) : PortKept s t := by
  rcases exec_cases h with ⟨e, j, d, rfl, -⟩ | ⟨-, d, rfl⟩ <;> exact ⟨rfl, rfl, rfl⟩

theorem runCommand_next (v : Word) (s : State) : ∃ t, runCommand v s = .next t ∧ PortKept s t := by
  cases hv : decode v with
  | ok i =>
    obtain ⟨t, ht⟩ := exec_next i s
    exact ⟨t, (runCommand_of_ok hv s).trans ht, exec_portKept ht⟩
  | error e => exact ⟨s.raiseError .illegalCmd 0, by simp [runCommand, hv], rfl, rfl, rfl⟩

/-- A write answers a next state, whatever its value and whatever it reaches. -/
theorem portWrite_next (s : State) (off n : Nat) (v : Word) : ∃ t, portWrite s off n v = .next t ∧ PortKept s t := by
  cases hregion : s.params.regionOf off with
  | reg r =>
    obtain rfl := Params.regionOf_eq_reg hregion
    by_cases hr : r = .cmd
    · subst hr
      obtain ⟨t, ht, hphase, hparams, hport⟩ := runCommand_next v (s.answer .written)
      exact ⟨t, (portWrite_cmd s n v).trans ht, hphase, hparams, hport⟩
    · obtain ⟨-, -, -, -, -, -, -, -, hparams, hphase, -, hport, -⟩ := s.writeReg_frame r v
      exact ⟨_, portWrite_reg s hr n v, hphase, hparams, hport⟩
  | key | inBuf =>
    simp only [portWrite, hregion]
    exact ⟨_, rfl, rfl, rfl, rfl⟩
  | outBuf | unassigned => exact ⟨_, portWrite_ignored (by simp [hregion]) n v, rfl, rfl, rfl⟩

theorem portRead_portKept (s : State) (off n : Nat) : PortKept s (portRead s off n) := by
  obtain ⟨d, r, h⟩ := portRead_own s off n
  rw [h]
  exact ⟨rfl, rfl, rfl⟩

/-- Settles O9: a legal access is a read or a write the port serves, and the others are the port's bus error. -/
theorem busErrorExactlyOnForbiddenAccess : Obligations.BusErrorExactlyOnForbiddenAccess := by
  intro s a n off rest hnext hoff ha
  refine ⟨fun hn => ?_, fun hn => step_forbidden hoff hnext ha (mt (legalAccess_iff off n).mp hn)⟩
  have hlegal := (legalAccess_iff off n).mpr hn
  rcases ha with rfl | ⟨v, rfl⟩
  · exact ⟨_, step_read hoff hnext hlegal⟩
  · obtain ⟨t, ht, -⟩ := portWrite_next { s with port := rest } off n v
    exact ⟨t, (step_write hoff hnext hlegal).trans ht⟩

/-! ## Well-formed events -/

theorem Params.windowOffset_lt {p : Params} {addr off : Nat} (h : p.windowOffset addr = some off) : off < 0x4000 := by
  unfold Params.windowOffset at h
  split at h
  · next hin =>
    have hhi : addr < p.engineBase + 0x4000 := hin.2
    cases h
    omega
  · cases h

/-- A well-formed access is a legal read or write at an offset of the window. -/
theorem Access.exists_of_wf {p : Params} {a : Access} (h : a.wf p = true) :
    ∃ off n, off < 0x4000 ∧ legalAccess off n = true ∧
      (a = .read (p.engineBase + off) n ∨ ∃ v, a = .write (p.engineBase + off) n v) := by
  cases a with
  | read addr n | write addr n v =>
    simp only [Access.wf] at h
    split at h
    · next off hoff =>
      obtain rfl := Params.windowOffset_eq_some hoff
      exact ⟨off, n, Params.windowOffset_lt hoff, h, by simp⟩
    · cases h

theorem serveAccess_next {a : Access} {s : State} (h : a.wf s.params = true) :
    ∃ t, serveAccess a s = .next t ∧ PortKept s t := by
  obtain ⟨off, n, hoff, hlegal, rfl | ⟨v, rfl⟩⟩ := Access.exists_of_wf h
  · exact ⟨_, (serveAccess_read s hoff n).trans (if_pos hlegal), portRead_portKept s off n⟩
  · rw [serveAccess_write s hoff, if_pos hlegal]
    exact portWrite_next s off n v

theorem serveInReset_next {a : Access} {s : State} (h : a.wf s.params = true) :
    ∃ t, serveInReset a s = .next t ∧ PortKept s t := by
  obtain ⟨off, n, hoff, -, rfl | ⟨v, rfl⟩⟩ := Access.exists_of_wf h
  · exact ⟨s.answerFree, by simp only [serveInReset, s.params.windowOffset_base_add hoff], rfl, rfl, rfl⟩
  · exact ⟨s.answerFree, by simp only [serveInReset, s.params.windowOffset_base_add hoff], rfl, rfl, rfl⟩

@[simp] theorem State.resetRegs_phase (s : State) (ph : Phase) : (s.resetRegs ph).phase = ph := rfl

/-- A powered engine serves a well-formed event other than loss of power, and stays powered. -/
theorem serve_next {e : PortEvent} {s : State} (hpower : s.phase ≠ .unpowered) (hwf : e.wf s.params = true)
    (he : e ≠ .powerLoss) :
    ∃ t, serve e s = .next t ∧ t.phase ≠ .unpowered ∧ t.params = s.params ∧ t.port = s.port := by
  cases e with
  | resetAssert => exact ⟨s.resetRegs .inReset, by simp only [serve], by simp, rfl, rfl⟩
  | powerLoss => exact absurd rfl he
  | access a =>
    obtain ⟨t, ht, hkept⟩ : ∃ t, serve (.access a) s = .next t ∧ PortKept s t := by
      cases hphase : s.phase with
      | unpowered => exact absurd hphase hpower
      | running => simpa only [serve, hphase] using serveAccess_next hwf
      | inReset => simpa only [serve, hphase] using serveInReset_next hwf
    exact ⟨t, ht, hkept.phase ▸ hpower, hkept.params, hkept.port⟩
  | resetRelease =>
    cases hphase : s.phase with
    | unpowered => exact absurd hphase hpower
    | running => exact ⟨s, by simp only [serve, hphase], hpower, rfl, rfl⟩
    | inReset => exact ⟨s.resetRegs .running, by simp only [serve, hphase], by simp, rfl, rfl⟩
  | cmdAbandoned v =>
    refine ⟨(s.resetRegs .inReset).answerFree, ?_, by simp, rfl, rfl⟩
    cases hphase : s.phase with
    | unpowered => exact absurd hphase hpower
    | running | inReset => simp only [serve, hphase]

/-! ## Runs -/

theorem run_succ_of_step (M : Host.Core) {s t : M.State} (h : M.step s = .next t) (k : Nat) :
    M.run (k + 1) s = M.run k t := by
  rw [Host.Core.run, h]

/-- Settles O57, by induction on the queue: each event is served and leaves a powered engine with the rest of it. -/
theorem wellFormedEventsRunSafely : Obligations.WellFormedEventsRunSafely := by
  intro s hpower hwf
  generalize hport : s.port = es at hwf ⊢
  induction es generalizing s with
  | nil => exact ⟨s, rfl⟩
  | cons e rest ih =>
    obtain ⟨he, hrest⟩ := List.forall_mem_cons.mp hwf
    obtain ⟨t, ht, htpower, htparams, htport⟩ := serve_next (s := { s with port := rest }) hpower he.1 he.2
    have hstep : step s = .next t := by simpa only [step, hport] using ht
    obtain ⟨u, hu⟩ := ih t htpower htport (by rwa [htparams])
    exact ⟨u, (run_succ_of_step core hstep _).trans hu⟩

end Sys2Proof.Machine
end

section
/-! SUPPORT. Running a command again: what it reads has not changed, and its epilogue undoes nothing of itself. -/

namespace Sys2Proof.Machine

open Sys2Proof.Statements

/-! ## Epilogues that have run before -/

theorem Memory.forget_forget (m : Memory) (lo hi : Nat) : (m.forget lo hi).forget lo hi = m.forget lo hi := by
  simp [Memory.forget]

theorem State.raiseError_raiseError (s : State) (e : ErrorName) (j : Nat) :
    (s.raiseError e j).raiseError e j = s.raiseError e j := by
  have hmem : ((s.raiseError e j).raiseError e j).mem = (s.raiseError e j).mem := Memory.forget_forget _ _ _
  show { s.raiseError e j with mem := ((s.raiseError e j).raiseError e j).mem } = s.raiseError e j
  rw [hmem]

/-- The results already stand where they are written. -/
theorem Results.putRegs_write (r : Results) (s : State) : r.putRegs (r.write s) = r.write s := by
  obtain ⟨counter, digest, truncation, out, m⟩ := r
  cases counter <;> cases digest <;> cases truncation <;> rfl

theorem Results.write_mem_wf {r : Results} {s : State} (h : s.mem.wf) : (r.write s).mem.wf :=
  State.succeed_mem_wf _ (State.putOut_mem_wf (s := r.putRegs s) _ h)

theorem Results.write_write {r : Results} {s : State} (hm : s.mem.wf) (hfit : r.out.length ≤ s.params.outBufBytes)
    (hlt : r.out.length < 2 ^ 32) : r.write (r.write s) = r.write s := by
  have hmem : (r.write (r.write s)).mem = (r.write s).mem := by
    refine Memory.ext (Results.write_mem_wf (Results.write_mem_wf hm)) (Results.write_mem_wf hm) fun a => ?_
    rw [Results.write_read? (s := r.write s) hfit hlt, Results.write_read? hfit hlt]
    split
    · next hin => exact (if_pos hin).symm
    · rfl
  calc r.write (r.write s) = { r.putRegs (r.write s) with mem := (r.write (r.write s)).mem } := rfl
    _ = r.write s := by rw [hmem, Results.putRegs_write]

end Sys2Proof.Machine

/-! ## A command does not change what it reads -/

namespace Sys2Proof.Statements

open Sys2Proof.Machine

theorem exec_readsAgree {i : Instr} {s t : State} (hw : s.params.wf) (h : exec i s = .next t) : ReadsAgree i s t := by
  obtain ⟨hin, -, -, hcounter, -⟩ := commandsKeepWhatTheyDoNotWrite i s t hw h
  have hbuf : s.params.inBufBytes ≤ 4096 := hw.2.2.1
  exact
    { bufBytes := by rw [hin.params]
      digits := fun _ => by rw [State.cfgDigits, State.cfgDigits, hin.cfg]
      window := fun _ => by rw [State.cfgWindow, State.cfgWindow, hin.cfg]
      tstep := fun _ => hin.tstep
      time := fun _ => hin.time
      counter := fun hi => hcounter (by simp [hi])
      keyLen := fun _ => by rw [State.keyLen, State.keyLen, hin.keylen]
      inLen := fun _ => by rw [State.inLen, State.inLen, hin.inlen]
      keyBytes := fun _ j _ _ => hin.bytes _ fun hout => by
        unfold InOut at hout
        omega
      inBytes := fun _ j _ _ => hin.bytes _ fun hout => by
        unfold InOut at hout
        omega }

section
variable {i : Instr} {s s' : State} (h : ReadsAgree i s s')
include h

theorem ReadsAgree.checksPass (hc : ChecksPass i s) : ChecksPass i s' := fun c hm => (h.checks c hm).trans (hc c hm)

theorem ReadsAgree.operandsWritten (hops : OperandsWritten i s) : OperandsWritten i s' := by
  obtain ⟨hkey, hin⟩ := hops
  refine ⟨fun hr j hj hlt => ?_, fun hr j hj hlt => ?_⟩
  · rw [h.keyLen hr] at hj
    rw [h.keyBytes hr j hj hlt]
    exact hkey hr j hj hlt
  · rw [h.inLen hr] at hj
    rw [h.bufBytes] at hlt
    rw [h.inBytes hr j hj hlt]
    exact hin hr j hj hlt

end

/-- Operands that have values cost no draw. -/
theorem afterOperands_of_written {i : Instr} {s : State} (hw : s.params.wf) (hc : ChecksPass i s)
    (hops : OperandsWritten i s) : s.afterOperands i = s := by
  obtain ⟨hkey, hin⟩ := hops
  have hk : (s.keyOperand i).2 = s := by
    by_cases hr : readsKey i
    · rw [s.keyOperand_of_reads hr]
      exact State.readSpan_state_of_some fun j hj => hkey hr j hj (lt_of_lt_of_le hj (hc.keyLen_le hr))
    · rw [s.keyOperand_of_not_reads hr]
  rw [State.afterOperands, hk]
  by_cases hr : readsIn i
  · rw [s.inOperand_of_reads hr]
    exact State.readSpan_state_of_some fun j hj => hin hr j hj (lt_of_lt_of_le hj (hc.inLen_le hw hr))
  · rw [s.inOperand_of_not_reads hr]

/-- The command's body on its own result, once its checks have passed. -/
theorem commandBody_commandBody {i : Instr} {s : State} (hw : s.params.wf) (hm : s.mem.wf)
    (hc : ChecksPass i s) (hops : OperandsWritten i s) (hagree : ReadsAgree i s (commandBody i s))
    (hparams : (commandBody i s).params.wf) : commandBody i (commandBody i s) = commandBody i s := by
  obtain ⟨hkey, hin⟩ := hagree.operandBytes_eq hw hc (.inl hops)
  have hs := afterOperands_of_written hw hc hops
  have ht := afterOperands_of_written hparams (hagree.checksPass hc) (hagree.operandsWritten hops)
  have hres := hagree.resultsOf_eq (s.keyBytes i) (s.inBytes i)
  rcases hdata : dataError i (s.inBytes i) with _ | ⟨e, j⟩
  · have hbody : commandBody i s = (resultsOf i s (s.keyBytes i) (s.inBytes i)).write s := by
      rw [commandBody_of_none hdata, hs]
    have hfit := resultsOf_out_fits (K := s.keyBytes i) hw hc (State.inBytes_length_le hw hc)
    rw [commandBody_of_none (hin.symm ▸ hdata), ht, hkey, hin, hres, hbody]
    exact Results.write_write hm hfit (Params.lt_of_fits hw hfit)
  · have hbody : commandBody i s = s.raiseError e j := by rw [commandBody_of_error hdata, hs]
    rw [commandBody_of_error (hin.symm ▸ hdata), ht, hbody]
    exact s.raiseError_raiseError e j

/-- Settles O55: the second run makes the same checks on the same operands, and its epilogue repeats the first one's. -/
theorem repeatedCommandChangesNothing : Obligations.RepeatedCommandChangesNothing := by
  intro i s t hw hm hops h
  have hagree := exec_readsAgree hw h
  rcases exec_agree hagree.checks with ⟨e, hs, ht⟩ | ⟨hc, hs, ht⟩
  · cases hs.symm.trans h
    rw [ht, State.raiseError_raiseError]
  · cases hs.symm.trans h
    rw [ht, commandBody_commandBody hw hm hc hops hagree ((exec_portKept h).params ▸ hw)]

end Sys2Proof.Statements
end

section
/-! SUPPORT. The decoder and the encoder are inverse: a word decodes to a command exactly when it is that command's
word, and bytes decode to it exactly when they begin with its bytes (spec/30_encoding.md R90 to R93). -/

namespace Sys2Proof

open Sys2Proof.Machine Sys2Proof.Statements

/-! ## Words -/

theorem decode_encode (i : Instr) : decode (encode i) = .ok i := by
  simp [decode, rsvdField_encode, opField_encode, instrOfOp_opcode]

theorem eq_encode_of_decode {v : Word} {i : Instr} (h : decode v = .ok i) : v = encode i := by
  unfold decode at h
  split at h
  · cases h
  · next hrsvd =>
    split at h
    · next j hop =>
      cases h
      rw [← rsvdField_append_opField v, not_not.mp hrsvd, Laws.Encoding.instrOfOp_inj hop, encode]
    · cases h

theorem decode_eq_ok_iff {v : Word} {i : Instr} : decode v = .ok i ↔ v = encode i :=
  ⟨eq_encode_of_decode, fun h => h ▸ decode_encode i⟩

/-- A word that is no command's word is rejected (R93). -/
theorem decode_eq_error_of_forall_ne {v : Word} (h : ∀ i, v ≠ encode i) : ∃ e, decode v = .error e := by
  cases hv : decode v with
  | ok i => exact absurd (eq_encode_of_decode hv) (h i)
  | error e => exact ⟨e, rfl⟩

theorem mem_opcodeMap_iff {v : Word} {i : Instr} : (v, i) ∈ opcodeMap ↔ v = encode i := by
  have hrows : ∀ row ∈ opcodeMap, row.1 = encode row.2 := by decide
  have hmem : (encode i, i) ∈ opcodeMap := by cases i <;> decide
  exact ⟨hrows (v, i), fun h => h ▸ hmem⟩

/-- Settles O1: the rows of the map are the commands' words, and the decoder answers on these alone. -/
theorem decodeIsTheOpcodeMap : Obligations.DecodeIsTheOpcodeMap :=
  ⟨fun _ _ => decode_eq_ok_iff.trans mem_opcodeMap_iff.symm, fun i => ⟨encode i, mem_opcodeMap_iff.mpr rfl⟩,
    fun _ h => decode_eq_error_of_forall_ne fun i hv => h i (mem_opcodeMap_iff.mpr hv)⟩

/-- Settles O3: the legal words are the commands' own, and the decoder runs on the other two. -/
theorem writtenOutWordsDecode : Obligations.WrittenOutWordsDecode :=
  ⟨decode_encode .sha1Hash, decode_encode .hmacSha1, decode_encode .totpGen, decode_encode .b32Decode,
    by decide, by decide⟩

/-! ## Bytes -/

/-- The four bytes that make a word are its lanes. -/
theorem Machine.lanes_ofLanes {bs : List Byte} (h : 4 ≤ bs.length) : lanes (ofLanes bs) = bs.take 4 := by
  match bs, h with
  | b0 :: b1 :: b2 :: b3 :: rest, _ =>
    have hlane {j : Nat} (hj : j < 4) := extractLsb'_ofLanes (b0 :: b1 :: b2 :: b3 :: rest) hj
    simp only [lanes, List.take, List.cons.injEq, and_true]
    exact ⟨hlane (j := 0) (by decide), hlane (j := 1) (by decide), hlane (j := 2) (by decide),
      hlane (j := 3) (by decide)⟩

theorem Machine.lanes_length (w : Word) : (lanes w).length = 4 := rfl

theorem decodeBytes_lanes_append (w : Word) (rest : List Byte) :
    decodeBytes (lanes w ++ rest) = (decode w).map (·, rest) := by
  have hlen : ¬ (lanes w ++ rest).length < 4 := by simp [lanes_length]
  rw [decodeBytes, if_neg hlen, ofLanes_lanes]
  cases decode w <;> rfl

theorem eq_append_of_decodeBytes {bs rest : List Byte} {i : Instr} (h : decodeBytes bs = .ok (i, rest)) :
    bs = encodeBytes i ++ rest := by
  unfold decodeBytes at h
  split at h
  · cases h
  · next hlen =>
    split at h
    · next j hj =>
      cases h
      rw [encodeBytes, ← eq_encode_of_decode hj, lanes_ofLanes (Nat.le_of_not_lt hlen), List.take_append_drop]
    · cases h

/-- Settles O2: four bytes are the lanes of the word they make, and words decode exactly where they are encodings. -/
theorem decodeEncodeAgree : Obligations.DecodeEncodeAgree := by
  refine ⟨fun i rest _ => ?_, fun _ _ _ => eq_append_of_decodeBytes⟩
  rw [encodeBytes, decodeBytes_lanes_append, decode_encode]
  rfl

end Sys2Proof
end

section
/-! SUPPORT. The CMD write of a word outside the opcode map, and the error epilogue as R293 states it. -/

namespace Sys2Proof.Machine

open Sys2Proof.Statements

theorem statusWord_error (e : ErrorName) : statusWord e.errCode false true = (e.errCode.setWidth 32 <<< 8) ||| 1 := by
  cases e <;> rfl

/-- The error epilogue does all that R293 says and nothing else. -/
theorem State.raiseError_errorEnd (s : State) (e : ErrorName) (j : Nat) :
    ErrorEnd s (s.raiseError e j) (e.errCode.setWidth 32) j where
  status := statusWord_error e
  erridx := rfl
  outlen := rfl
  out a ha := (s.raiseError_read? e j a).trans (if_pos ha)
  inputs := s.raiseError_inputsKept s.draws e j
  digest := rfl
  truncation := ⟨rfl, rfl, rfl⟩
  counter := rfl

theorem runCommand_of_error {v : Word} {e : DecodeReject} (h : decode v = .error e) (s : State) :
    runCommand v s = .next (s.raiseError .illegalCmd 0) := by
  simp [runCommand, h]

theorem step_illegal {s : State} {v : Word} {e : DecodeReject} {rest : List PortEvent}
    (h : Next s (.write s.params.engineBase 4 v) rest) (hv : decode v = .error e) :
    step s = .next (State.raiseError { s with port := rest, reply := .written } .illegalCmd 0) := by
  rw [step_write_reg (r := .cmd) h, portWrite_cmd, runCommand_of_error hv]
  rfl

/-- A command's word is its OP, which is 0x01 to 0x0A (R92). -/
theorem encode_toNat_bounds (i : Instr) : 1 ≤ (encode i).toNat ∧ (encode i).toNat ≤ 0x0A := by
  cases i <;> decide

/-- Settles O5: the word is no command's word, so the decoder rejects it and the step is the error epilogue. -/
theorem illegalWordRaisesIllegalCmd : Obligations.IllegalWordRaisesIllegalCmd := by
  intro s v rest hnext hword
  have hne (i : Instr) : v ≠ encode i := by
    rintro rfl
    have hbounds := encode_toNat_bounds i
    omega
  obtain ⟨e, hv⟩ := decode_eq_error_of_forall_ne hne
  exact ⟨_, step_illegal hnext hv, State.raiseError_errorEnd _ _ _⟩

end Sys2Proof.Machine
end

section
/-! SUPPORT. The expansions of `setin`, `setkey`, `setctr`, `settime` and `setcfg`, run to their end
(spec/30_encoding.md R98). -/

namespace Sys2Proof.Machine

open Sys2Proof.Statements

/-! ## What a register write stores -/

/-- A register without reserved bits holds the written value. -/
theorem State.mergeReg_of_no_reserved (s : State) {r : HostReg} (h : r.fields = BitVec.allOnes 32) (v : Word) :
    s.mergeReg r v = v := by
  have hall := s.mergeReg_fields r v
  rwa [h, BitVec.and_allOnes, BitVec.and_allOnes] at hall

/-- A span of a register's non-reserved bits holds the written value's. -/
theorem State.mergeReg_extractLsb' (s : State) {r : HostReg} {i n : Nat}
    (h : r.fields.extractLsb' i n = BitVec.allOnes n) (v : Word) :
    (s.mergeReg r v).extractLsb' i n = v.extractLsb' i n := by
  have hfields := congrArg (BitVec.extractLsb' i n) (s.mergeReg_fields r v)
  rwa [BitVec.extractLsb'_and, BitVec.extractLsb'_and, h, BitVec.and_allOnes, BitVec.and_allOnes] at hfields

theorem State.writeReg_counter_halves (s : State) (c : DWord) :
    (s.writeReg .counterLo (c.extractLsb' 0 32)).writeReg .counterHi (c.extractLsb' 32 32) =
      { s with counter := c } := by
  simp only [State.writeReg, State.mergeReg_of_no_reserved _ (r := .counterLo) rfl,
    State.mergeReg_of_no_reserved _ (r := .counterHi) rfl, lowWord_append]
  congr
  exact BitVec.extractLsb'_append_extractLsb'

theorem State.writeReg_time_halves (s : State) (ms : DWord) :
    (s.writeReg .timeLo (ms.extractLsb' 0 32)).writeReg .timeHi (ms.extractLsb' 32 32) = { s with time := ms } := by
  simp only [State.writeReg, State.mergeReg_of_no_reserved _ (r := .timeLo) rfl,
    State.mergeReg_of_no_reserved _ (r := .timeHi) rfl, lowWord_append]
  congr
  exact BitVec.extractLsb'_append_extractLsb'

/-- A register write neither reads nor changes the queue and the answer. -/
theorem State.writeReg_own (s : State) (r : HostReg) (v : Word) (port : List PortEvent) (a : Reply) :
    { s.writeReg r v with port := port, reply := a } = State.writeReg { s with port := port, reply := a } r v := by
  cases r <;> rfl

/-! ## One statement of the expansion -/

section
variable {s : State} {rest : List PortEvent} (hphase : s.phase = .running)
include hphase

theorem step_sw_reg {r : HostReg} (hr : IsRw r) {v : Word} (hport : s.port = sw s.params r.offset v :: rest) :
    step s = .next (State.writeReg { s with port := rest, reply := .written } r v) := by
  rw [step_write_reg ⟨hphase, hport⟩, portWrite_reg _ (ne_cmd_of_isRw hr)]
  cases r <;> rfl

theorem step_sb_buffer (hw : s.params.wf) {off : Nat}
    (hoff : (0x100 ≤ off ∧ off < 0x140) ∨ (0x1000 ≤ off ∧ off < 0x1000 + s.params.inBufBytes)) {b : Byte}
    (hport : s.port = sb s.params off b :: rest) :
    step s = .next { s with mem := s.mem.write off b, port := rest, reply := .written } := by
  have hbuf : InBuffer s off := hoff.elim .inl (.inr ∘ .inl)
  have hlane : (lanes (b.setWidth 32)).take 1 = [b] :=
    congrArg (fun x => [x]) ((BitVec.extractLsb'_setWidth_of_le (by decide)).trans BitVec.extractLsb'_eq_self)
  rw [step_write (hbuf.lt_window hw) ⟨hphase, hport⟩ (hbuf.legalAccess (.inr rfl)),
    portWrite_buffer { s with port := rest } hoff, State.writeBuffer, hlane]
  rfl

end

/-! ## Bytes in and beside a written span -/

theorem Memory.read?_writeSpan_add (m : Memory) (a : Nat) {bs : List Byte} {j : Nat} (h : j < bs.length) :
    (m.writeSpan a bs).read? (a + j) = bs[j]? := by
  rw [Memory.read?_writeSpan, if_pos (by omega), Nat.add_sub_cancel_left]

theorem Memory.read?_writeSpan_outside (m : Memory) {a b : Nat} {bs : List Byte} (h : b < a ∨ a + bs.length ≤ b) :
    (m.writeSpan a bs).read? b = m.read? b := by
  rw [Memory.read?_writeSpan, if_neg (by omega)]

/-! ## Runs of an expansion -/

/-- Two register writes, as `setctr` and `settime` make them. -/
theorem run_sw_sw {s : State} {r r' : HostReg} {v v' : Word} {rest : List PortEvent} (hphase : s.phase = .running)
    (hr : IsRw r) (hr' : IsRw r') (hport : s.port = [sw s.params r.offset v, sw s.params r'.offset v'] ++ rest) :
    Host.Core.run core 2 s =
      .next ((State.writeReg { s with port := rest, reply := .written } r v).writeReg r' v') := by
  rw [run_succ_of_step core (step_sw_reg hphase hr hport)]
  obtain ⟨-, -, -, -, -, -, -, -, hparams, hframe, -, hqueue, -⟩ :=
    State.writeReg_frame { s with port := sw s.params r'.offset v' :: rest, reply := .written } r v
  have hnext := step_sw_reg (v := v') (rest := rest) (hframe.trans hphase) hr' (hqueue.trans (by rw [hparams]))
  rw [State.writeReg_own] at hnext
  exact run_succ_of_step core hnext 0

/-- Bytes stored into KEY or IN one by one and then a register write, as `setin` and `setkey` make them. -/
theorem run_sbSpan_sw {s : State} {off : Nat} {bs : List Byte} {r : HostReg} {v : Word} {rest : List PortEvent}
    (hw : s.params.wf) (hphase : s.phase = .running) (hr : IsRw r)
    (hoff : (0x100 ≤ off ∧ off + bs.length ≤ 0x140) ∨
      (0x1000 ≤ off ∧ off + bs.length ≤ 0x1000 + s.params.inBufBytes))
    (hport : s.port = sbSpan s.params off bs ++ sw s.params r.offset v :: rest) :
    Host.Core.run core (bs.length + 1) s =
      .next (State.writeReg { s with mem := s.mem.writeSpan off bs, port := rest, reply := .written } r v) := by
  induction bs generalizing s off with
  | nil => exact run_succ_of_step core (step_sw_reg hphase hr hport) 0
  | cons b bs ih =>
    rw [List.length_cons] at hoff ⊢
    have hstep := step_sb_buffer hphase hw (off := off) (by omega) hport
    rw [run_succ_of_step core hstep]
    have hrest : (0x100 ≤ off + 1 ∧ off + 1 + bs.length ≤ 0x140) ∨
        (0x1000 ≤ off + 1 ∧ off + 1 + bs.length ≤ 0x1000 + s.params.inBufBytes) := by omega
    exact ih (s := { s with mem := s.mem.write off b, port := _, reply := .written }) hw hphase hrest rfl

/-! ## The values the expansions write -/

theorem State.inLen_writeReg (s : State) {n : Nat} (h : n < 2 ^ 32) :
    (s.writeReg .inlen (BitVec.ofNat 32 n)).inLen = n := by
  show (s.mergeReg .inlen _).toNat = n
  rw [State.mergeReg_of_no_reserved _ rfl, BitVec.toNat_ofNat, Nat.mod_eq_of_lt h]

theorem State.keyLen_writeReg (s : State) {n : Nat} (h : n < 2 ^ 8) :
    (s.writeReg .keylen (BitVec.ofNat 32 n)).keyLen = n := by
  show ((s.mergeReg .keylen _).extractLsb' 0 8).toNat = n
  rw [State.mergeReg_extractLsb' _ rfl, BitVec.extractLsb'_toNat, BitVec.toNat_ofNat]
  omega

/-- The word of `setcfg`: the window above the digit count. -/
theorem cfgWord_toNat {d w : Nat} (hd : d < 16) (hw : w < 256) :
    ((BitVec.ofNat 32 w <<< 8) ||| BitVec.ofNat 32 d).toNat = w * 256 + d := by
  rw [BitVec.toNat_or, BitVec.toNat_shiftLeft, BitVec.toNat_ofNat, BitVec.toNat_ofNat, Nat.mod_eq_of_lt (by omega),
    Nat.mod_eq_of_lt (by omega), Nat.mod_eq_of_lt (by omega), ← Nat.shiftLeft_add_eq_or_of_lt (by omega),
    Nat.shiftLeft_eq]

theorem State.cfgDigits_writeReg (s : State) (v : Word) : (s.writeReg .cfg v).cfgDigits = v.toNat % 16 := by
  show ((s.mergeReg .cfg v).extractLsb' 0 4).toNat = _
  rw [State.mergeReg_extractLsb' _ rfl, BitVec.extractLsb'_toNat]
  rfl

theorem State.cfgWindow_writeReg (s : State) (v : Word) : (s.writeReg .cfg v).cfgWindow = v.toNat / 256 % 256 := by
  show ((s.mergeReg .cfg v).extractLsb' 8 8).toNat = _
  rw [State.mergeReg_extractLsb' _ rfl, BitVec.extractLsb'_toNat, Nat.shiftRight_eq_div_pow]

/-- Settles O17: each expansion is a run of byte stores and register writes, and each stored value is read back. -/
theorem hostPseudoStatementsLoadOperands : Obligations.HostPseudoStatementsLoadOperands := by
  intro (s : State) rest hw hphase
  refine ⟨fun bs hlen hport => ?_, fun bs hlen hport => ?_, fun c hport => ?_, fun ms hport => ?_,
    fun d w hd hwin hport => ?_⟩
  · have ⟨_, _, hmax, _⟩ := hw
    rw [setin, List.append_assoc] at hport
    exact ⟨_, run_sbSpan_sw (r := .inlen) hw hphase trivial (.inr ⟨le_rfl, by omega⟩) hport,
      State.inLen_writeReg _ (by omega), rfl,
      fun _ hj => Memory.read?_writeSpan_add _ _ hj, fun _ ha => Memory.read?_writeSpan_outside _ ha⟩
  · rw [setkey, List.append_assoc] at hport
    exact ⟨_, run_sbSpan_sw (r := .keylen) hw hphase trivial (.inl ⟨le_rfl, by omega⟩) hport,
      State.keyLen_writeReg _ (by omega), rfl, s.mergeReg_reserved .keylen _,
      fun _ hj => Memory.read?_writeSpan_add _ _ hj, fun _ ha => Memory.read?_writeSpan_outside _ ha⟩
  · exact (run_sw_sw hphase (r := .counterLo) (r' := .counterHi) trivial trivial hport).trans
      (congrArg _ (State.writeReg_counter_halves _ c))
  · exact (run_sw_sw hphase (r := .timeLo) (r' := .timeHi) trivial trivial hport).trans
      (congrArg _ (State.writeReg_time_halves _ ms))
  · have hword := cfgWord_toNat hd hwin
    exact ⟨_, run_succ_of_step core (step_sw_reg (r := .cfg) hphase trivial hport) 0,
      (State.cfgDigits_writeReg _ _).trans (by omega), (State.cfgWindow_writeReg _ _).trans (by omega), rfl,
      s.mergeReg_reserved .cfg _⟩

end Sys2Proof.Machine
end

section
/-! SUPPORT. The Digest Engine as the rules of spec/40_sha1.md state it: the padded message, the message schedule, the
rounds of the compression function, and the chaining of the blocks. -/

namespace Sys2Proof.Machine

open Sys2Proof.Statements

/-! ## The padded message (R122, R123) -/

theorem padZeros_mod (L : Nat) : padZeros L ≤ 63 ∧ (L + 1 + padZeros L) % 64 = 56 := by
  unfold padZeros
  omega

theorem extractLsb'_extractLsb'_eq_ofNat (v : DWord) (a : Nat) {k : Nat} (hk : k + 8 ≤ 32) :
    (v.extractLsb' a 32).extractLsb' k 8 = BitVec.ofNat 8 (v.toNat / 2 ^ (a + k)) := by
  have hspan : (v.extractLsb' a 32).extractLsb' k 8 = v.extractLsb' (a + k) 8 :=
    BitVec.eq_of_getLsbD_eq fun i hi => by simp [hi, show k + i < 32 by omega, Nat.add_assoc]
  rw [hspan, ← Nat.shiftRight_eq_div_pow]
  rfl

/-- The eight bytes of a number, most significant first. -/
theorem bytesBe64_eq_map (v : DWord) :
    bytesBe64 v = (List.range 8).map fun j => BitVec.ofNat 8 (v.toNat / 256 ^ (7 - j)) := by
  have hbyte (a : Nat) {k : Nat} (hk : k + 8 ≤ 32) := extractLsb'_extractLsb'_eq_ofNat v a hk
  simp [bytesBe64, bytesBe32, hbyte, List.range_succ]

theorem pad_length (M : List Byte) : (pad M).length = 64 * ((M.length + 8) / 64 + 1) := by
  have hZ := padZeros_mod M.length
  simp only [pad, List.length_append, List.length_replicate, List.length_singleton, bytesBe64_length]
  omega

/-- Settles O34: the zeros are those of `padZeros`, and the bit length is the bytes of a 64-bit number. -/
theorem paddingShape : Obligations.PaddingShape := by
  intro M
  obtain ⟨hle, hmod⟩ := padZeros_mod M.length
  refine ⟨padZeros M.length, hle, hmod, ?_, pad_length M⟩
  rw [pad, bytesBe64_eq_map, BitVec.toNat_ofNat]

/-! ## The message schedule (R124, R125) -/

theorem rotl32_eq_rotateLeft (x : Word) {n : Nat} (h : n < 32) : rotl32 x n = x.rotateLeft n := by
  rw [BitVec.rotateLeft_def, Nat.mod_eq_of_lt h]
  rfl

@[simp] theorem extendWords_length (n : Nat) (ws : List Word) : (extendWords n ws).length = ws.length + n := by
  induction n generalizing ws with
  | zero => rfl
  | succ n ih =>
    rw [extendWords, ih, List.length_cons]
    omega

/-- Extending keeps the words a schedule begins with. -/
theorem take_reverse_extendWords (n : Nat) (ws : List Word) :
    (extendWords n ws).reverse.take ws.length = ws.reverse := by
  induction n generalizing ws with
  | zero => simp [extendWords]
  | succ n ih =>
    have h := congrArg (List.take ws.length) (ih (nextWord ws :: ws))
    simpa [extendWords, List.take_take, List.take_append_of_le_length] using h

/-- Each word that extending adds is the next one of the words before it. -/
theorem reverse_extendWords_getElem? {n t : Nat} {ws : List Word} (hlo : ws.length ≤ t) (hhi : t < ws.length + n) :
    (extendWords n ws).reverse[t]? = some (nextWord ((extendWords n ws).reverse.take t).reverse) := by
  induction n generalizing ws with
  | zero => omega
  | succ n ih =>
    rcases hlo.eq_or_lt with rfl | hlt
    · have hword := take_reverse_extendWords n (nextWord ws :: ws)
      rw [take_reverse_extendWords, List.reverse_reverse, extendWords,
        ← List.getElem?_take_of_lt (Nat.lt_succ_self ws.length)]
      simp only [List.length_cons, List.reverse_cons] at hword
      simp [hword]
    · exact ih hlt (by rw [List.length_cons]; omega)

@[simp] theorem blockWords_length (B : List Byte) : (blockWords B).length = 16 := rfl

@[simp] theorem schedule_length (B : List Byte) : (schedule B).length = 80 := by simp [schedule]

/-- The first 16 words of a schedule are those of the block. -/
theorem schedule_getElem?_of_lt {B : List Byte} {t : Nat} (h : t < 16) :
    (schedule B)[t]? = some (be32 (slice B (4 * t) 4)) := by
  have htake : (schedule B).take 16 = blockWords B :=
    (take_reverse_extendWords 64 (blockWords B).reverse).trans (List.reverse_reverse _)
  rw [← List.getElem?_take_of_lt h, htake]
  simp [blockWords, h]

theorem schedule_getElem?_of_le {B : List Byte} {t : Nat} (hlo : 16 ≤ t) (hhi : t < 80) :
    (schedule B)[t]? = some (nextWord ((schedule B).take t).reverse) :=
  reverse_extendWords_getElem? (ws := (blockWords B).reverse) hlo hhi

/-- In the first `t` elements of a list, latest first, element `k` is the one `k + 1` places before `t`. -/
theorem getD_reverse_take {S : List Word} {k t : Nat} (hk : k < t) (ht : t ≤ S.length) (x : Word) :
    S[t - (k + 1)]? = some ((S.take t).reverse.getD k x) := by
  have hlen : (S.take t).length = t := List.length_take_of_le ht
  rw [← List.getElem?_take_of_lt (show t - (k + 1) < t by omega), List.getD_eq_getElem?_getD,
    List.getElem?_reverse (hlen.symm ▸ hk), hlen, Nat.sub_sub, Nat.add_comm 1 k,
    List.getElem?_eq_getElem (by omega), Option.getD_some]

theorem be32_slice {B : List Byte} {i : Nat} (h : i + 3 < B.length) :
    be32 (slice B i 4) = B[i] ++ B[i + 1] ++ B[i + 2] ++ B[i + 3] := by
  have hbyte {j : Nat} (hj : j < 4) : (slice B i 4).getD j 0 = B[i + j] := by
    simp [slice, List.getElem?_take_of_lt hj, List.getElem?_eq_getElem (show i + j < B.length by omega)]
  rw [be32, hbyte (by decide), hbyte (by decide), hbyte (by decide), hbyte (by decide)]
  rfl

/-- Settles O35: the block's words first, then each added word from the four words it looks back at. -/
theorem scheduleRecurrence : Obligations.ScheduleRecurrence := by
  intro B hB
  refine ⟨schedule_length B, fun t ht => ?_, fun t hlo hhi => ?_⟩
  · refine ⟨_, _, _, _, List.getElem?_eq_getElem (by omega), List.getElem?_eq_getElem (by omega),
      List.getElem?_eq_getElem (by omega), List.getElem?_eq_getElem (by omega), ?_⟩
    rw [schedule_getElem?_of_lt ht, be32_slice (by omega)]
  · have hback {k : Nat} (hk : k < 16) := getD_reverse_take (S := schedule B) (hk.trans_le hlo)
      (hhi.le.trans_eq (schedule_length B).symm) 0
    refine ⟨_, _, _, _, hback (k := 2) (by decide), hback (k := 7) (by decide), hback (k := 13) (by decide),
      hback (k := 15) (by decide), ?_⟩
    rw [schedule_getElem?_of_le hlo hhi, nextWord, rotl32_eq_rotateLeft _ (by decide)]

/-! ## The compression function (R126 to R130) -/

/-- The working words before round `t` (R129). -/
def workingWords (H : HashWords) (B : List Byte) (t : Nat) : HashWords := rounds 0 H ((schedule B).take t)

theorem rounds_append_singleton (t : Nat) (v : HashWords) (ws : List Word) (w : Word) :
    rounds t v (ws ++ [w]) = roundStep (t + ws.length) (rounds t v ws) w := by
  induction ws generalizing t v with
  | nil => rfl
  | cons x xs ih =>
    rw [List.cons_append, rounds, ih, rounds, List.length_cons]
    congr 1
    omega

theorem workingWords_succ (H : HashWords) {B : List Byte} {t : Nat} {w : Word} (hw : (schedule B)[t]? = some w) :
    workingWords H B (t + 1) = roundStep t (workingWords H B t) w := by
  obtain ⟨ht, -⟩ := List.getElem?_eq_some_iff.mp hw
  rw [workingWords, List.take_add_one, hw, Option.toList_some, rounds_append_singleton,
    List.length_take_of_le ht.le, Nat.zero_add]
  rfl

theorem workingWords_eighty (H : HashWords) (B : List Byte) : workingWords H B 80 = rounds 0 H (schedule B) :=
  congrArg (rounds 0 H) (List.take_of_length_le (schedule_length B).le)

/-- The round function with its two parity ranges as one case, as R126 has it. -/
theorem roundFn_eq (t : Nat) (b c d : Word) :
    roundFn t b c d = if t < 20 then (b &&& c) ||| (~~~b &&& d)
      else if 40 ≤ t ∧ t < 60 then (b &&& c) ||| (b &&& d) ||| (c &&& d) else b ^^^ c ^^^ d := by
  unfold roundFn
  by_cases h20 : t < 20
  · simp [h20]
  · by_cases h40 : t < 40
    · simp [h20, h40, show ¬ 40 ≤ t by omega]
    · simp [h20, h40, show 40 ≤ t by omega]

/-- Settles O36: the sequence is that of the working words. -/
theorem compressionIsEightyRounds : Obligations.CompressionIsEightyRounds := by
  intro H B
  refine ⟨workingWords H B, rfl, fun t _ w hw => ?_, ?_⟩
  · rw [workingWords_succ H hw, roundStep, roundFn_eq, rotl32_eq_rotateLeft _ (by decide),
      rotl32_eq_rotateLeft _ (by decide)]
    rfl
  · rw [workingWords_eighty]
    rfl

/-! ## The chaining of the blocks (R121, R131, R132) -/

/-- The chaining words before block `j` of a padded message (R132). -/
def chainingWords (P : List Byte) (j : Nat) : HashWords :=
  (List.range j).foldl (fun H i => compress H (slice P (64 * i) 64)) hashInit

theorem chainingWords_succ (P : List Byte) (j : Nat) :
    chainingWords P (j + 1) = compress (chainingWords P j) (slice P (64 * j) 64) := by
  simp [chainingWords, List.range_succ]

theorem hashBlocks_pad (M : List Byte) : hashBlocks (pad M) = chainingWords (pad M) ((M.length + 8) / 64 + 1) := by
  have hblocks : (pad M).length / 64 = (M.length + 8) / 64 + 1 := by
    rw [pad_length, Nat.mul_div_cancel_left _ (by decide)]
  rw [← hblocks]
  rfl

/-- Settles O37: the sequence is that of the chaining words. -/
theorem digestChainsTheBlocks : Obligations.DigestChainsTheBlocks := by
  intro M
  refine ⟨chainingWords (pad M), rfl, fun j _ => chainingWords_succ (pad M) j, sha1_length M, ?_⟩
  rw [sha1, hashBlocks_pad]
  rfl

end Sys2Proof.Machine
end

section
/-! SUPPORT. How a command ends, in the words of the statements: the error of its first failing check, or the output,
the digest and the status of a success. Then SHA1_HASH (spec/40_sha1.md R134). -/

namespace Sys2Proof.Machine

open Sys2Proof.Statements

/-! ## The first failing check -/

theorem runChecked_first_failing {checks pre post : List RegCheck} {c : RegCheck} {s : State}
    (hchecks : checks = pre ++ c :: post) (hpre : ∀ c' ∈ pre, c'.fails s = false) (hc : c.fails s = true)
    (body : State → State) : runChecked checks s body = .next (s.raiseError c.error 0) := by
  subst hchecks
  induction pre with
  | nil => exact (runChecked_cons c post s body).trans (if_pos hc)
  | cons c' pre ih =>
    obtain ⟨hc', hpre'⟩ := List.forall_mem_cons.mp hpre
    rw [List.cons_append, runChecked_cons, hc', if_neg Bool.false_ne_true]
    exact ih hpre'

/-- A command whose first failing check is `c` ends with the error of `c` (R292, R293). -/
theorem exec_errorEnd_of_first_failing {i : Instr} {pre post : List RegCheck} {c : RegCheck} {s : State}
    (hchecks : checksOf i = pre ++ c :: post) (hpre : ∀ c' ∈ pre, c'.fails s = false) (hc : c.fails s = true) :
    ∃ t, exec i s = .next t ∧ ErrorEnd s t (c.error.errCode.setWidth 32) 0 :=
  ⟨_, (exec_eq i s).trans (runChecked_first_failing hchecks hpre hc _), s.raiseError_errorEnd c.error 0⟩

/-! ## Success -/

/-- A command whose checks pass and whose input raises no error writes its results. -/
theorem exec_success {i : Instr} {s : State} (hc : ChecksPass i s) (hdata : dataError i (s.inBytes i) = none) :
    ∃ d, exec i s = .next ((resultsOf i s (s.keyBytes i) (s.inBytes i)).write { s with draws := d }) := by
  obtain ⟨d, hd⟩ := s.afterOperands_draws_only i
  exact ⟨d, by rw [exec_eq, runChecked_ok _ hc, commandBody_of_none hdata, hd]⟩

theorem Results.write_success (r : Results) (s : State) : Success (r.write s) r.isMatch := by
  refine ⟨?_, rfl⟩
  show statusWord 0x00 r.isMatch false = _
  cases r.isMatch <;> rfl

theorem Results.write_output {r : Results} {s : State} (hw : s.params.wf)
    (hfit : r.out.length ≤ s.params.outBufBytes) (d : Nat) : Output s (r.write { s with draws := d }) r.out := by
  have hlt := Params.lt_of_fits hw hfit
  have hread := Results.write_read? (s := { s with draws := d }) hfit hlt
  exact {
    fits := hfit
    outlen := Results.write_outlen hlt _
    bytes := fun j hj => by
      have hin : Config.outBase + j < s.outEnd := Nat.add_lt_add_left (hj.trans_le hfit) _
      rw [hread, if_pos ⟨Nat.le_add_right _ _, hin⟩, Nat.add_sub_cancel_left]
    stale := fun a ha hge =>
      (hread a).trans ((if_pos ha).trans (List.getElem?_eq_none (Nat.le_sub_of_add_le' hge))) }

/-- The DIGEST registers of a success hold the SHA-1 result it writes; an HMAC is one too (R174). -/
theorem Results.write_digestIs {r : Results} {M : List Byte} (h : r.digest = some (sha1 M)) (s : State) :
    DigestIs (r.write s) (sha1 M) := by
  have hdigest : (r.write s).digest = hashBlocks (pad M) := by
    show r.digest.elim s.digest _ = _
    rw [h]
    exact s.putDigest_bytes _
  rw [DigestIs, hdigest]
  rfl

/-! ## SHA1_HASH -/

/-- Settles O24: its one check is the input length, and its results are the digest in DIGEST and OUT. -/
theorem sha1HashResult : Obligations.Sha1HashResult := by
  refine ⟨decode_encode .sha1Hash, fun s hw hlen => ?_, fun s hlong => ?_⟩
  · have hpass : ChecksPass .sha1Hash s := by
      simpa [ChecksPass, checksOf, RegCheck.fails] using hlen
    have hfit := resultsOf_out_fits (K := s.keyBytes .sha1Hash) hw hpass (State.inBytes_length_le hw hpass)
    obtain ⟨d, hexec⟩ := exec_success hpass rfl
    exact ⟨_, hexec, Results.write_digestIs rfl _, Results.write_output hw hfit d, rfl, Results.write_success _ _,
      Results.write_inputsKept hw hfit d, Results.write_truncationKept rfl s d, Results.write_counterKept rfl s d⟩
  · exact exec_errorEnd_of_first_failing (pre := []) (c := .inLong) rfl (by simp) ((RegCheck.fails_inLong s).mpr hlong)

end Sys2Proof.Machine
end

section
/-! SUPPORT. The HMAC Constructor and HMAC_SHA1 (spec/41_hmac.md): the padded key, the nested hash, and the command. -/

namespace Sys2Proof.Machine

open Sys2Proof.Statements

/-! ## The padded key (R172, R173) -/

theorem padKey_length {K : List Byte} (h : K.length ≤ 64) : (padKey K).length = 64 := by
  rw [padKey, List.length_append, List.length_replicate]
  exact Nat.add_sub_cancel' h

theorem xorPad_length (c : Byte) {K : List Byte} (h : K.length ≤ 64) : (xorPad c K).length = 64 := by
  rw [xorPad, List.length_map, padKey_length h]

/-- Zero bytes after the key are zero bytes of its padding. -/
theorem padKey_append_zeros {K : List Byte} {n : Nat} (h : K.length + n ≤ 64) :
    padKey (K ++ List.replicate n 0x00) = padKey K := by
  have hzeros : n + (64 - (K.length + n)) = 64 - K.length := by omega
  simp only [padKey, List.length_append, List.length_replicate, List.append_assoc, List.replicate_append_replicate,
    hzeros]

/-! ## The nested hash (R174) -/

/-- HMAC depends on the key through the padded key alone. -/
theorem hmac_congr_padKey {K K' : List Byte} (h : padKey K = padKey K') (M : List Byte) : hmac K M = hmac K' M := by
  simp only [hmac, hmacInner, xorPad, h]

theorem hmac_outer_length {K : List Byte} (h : K.length ≤ 64) (M : List Byte) :
    (xorPad 0x5C K ++ hmacInner K M).length = 84 := by
  rw [List.length_append, xorPad_length _ h, hmacInner, sha1_length]

/-- Settles O38: the padded key is `padKey`, and the outer input is a block of key and a digest. -/
theorem hmacIsTheNestedHash : Obligations.HmacIsTheNestedHash := by
  intro K M hK
  have houter := hmac_outer_length hK M
  refine ⟨padKey_length hK, rfl, houter, ?_⟩
  calc (pad (xorPad 0x5C K ++ hmacInner K M)).length
      = 64 * ((84 + 8) / 64 + 1) := by rw [pad_length, houter]
    _ = 128 := rfl

/-- Settles O39: the longer key has the same padded key. -/
theorem hmacIgnoresTrailingZeroKeyBytes : Obligations.HmacIgnoresTrailingZeroKeyBytes :=
  fun _ M _ h => hmac_congr_padKey (padKey_append_zeros h) M

/-! ## HMAC_SHA1 (R175) -/

theorem RegCheck.fails_keyLong_eq_false {s : State} (h : s.keyLen ≤ 64) : RegCheck.fails .keyLong s = false :=
  decide_eq_false (Nat.not_lt.mpr h)

theorem RegCheck.fails_inLong_eq_false {s : State} (h : s.inLen ≤ s.params.inBufBytes) :
    RegCheck.fails .inLong s = false :=
  decide_eq_false (Nat.not_lt.mpr h)

/-- Settles O25: its checks are the key length, then the input length, and its results are the HMAC in DIGEST and
OUT. -/
theorem hmacSha1Result : Obligations.HmacSha1Result := by
  refine ⟨decode_encode .hmacSha1, fun s hw hkey hlen => ?_, fun s hlong => ?_, fun s hkey hlong => ?_⟩
  · have hpass : ChecksPass .hmacSha1 s :=
      List.forall_mem_cons.mpr ⟨RegCheck.fails_keyLong_eq_false hkey,
        List.forall_mem_singleton.mpr (RegCheck.fails_inLong_eq_false hlen)⟩
    have hfit := resultsOf_out_fits (K := s.keyBytes .hmacSha1) hw hpass (State.inBytes_length_le hw hpass)
    obtain ⟨d, hexec⟩ := exec_success hpass rfl
    exact ⟨_, hexec, Results.write_digestIs rfl _, Results.write_output hw hfit d, rfl, Results.write_success _ _,
      Results.write_inputsKept hw hfit d, Results.write_truncationKept rfl s d, Results.write_counterKept rfl s d⟩
  · exact exec_errorEnd_of_first_failing (pre := []) (c := .keyLong) rfl (by simp)
      ((RegCheck.fails_keyLong s).mpr hlong)
  · exact exec_errorEnd_of_first_failing (pre := [.keyLong]) (c := .inLong) rfl
      (List.forall_mem_singleton.mpr (RegCheck.fails_keyLong_eq_false hkey)) ((RegCheck.fails_inLong s).mpr hlong)

end Sys2Proof.Machine
end

section
/-! SUPPORT. The units of spec/42_otp.md: dynamic truncation, the code string, the TOTP counter, candidates and
verification. -/

namespace Sys2Proof.Machine

open Sys2Proof.Statements

/-! ## Dynamic truncation (R192 to R194) -/

theorem truncOffset_toNat (HS : List Byte) : (truncOffset HS).toNat = (HS.getD 19 0).toNat % 16 :=
  Nat.and_two_pow_sub_one_eq_mod _ 4

theorem truncateHs_offset_toNat (HS : List Byte) (d : Nat) :
    (truncateHs HS d).offset.toNat = (HS.getD 19 0).toNat % 16 :=
  (BitVec.toNat_setWidth_of_le (by decide)).trans (truncOffset_toNat HS)

/-- The mask of R193 clears the top bit of the first byte and keeps the other three bytes. -/
theorem append_and_valueMask (a b c e : Byte) :
    (a ++ b ++ c ++ e) &&& ((0x7F : Byte) ++ BitVec.allOnes 8 ++ BitVec.allOnes 8 ++ BitVec.allOnes 8) =
      (a &&& 0x7F) ++ b ++ c ++ e := by
  simp only [BitVec.and_append, BitVec.and_allOnes]

/-- P is the four bytes from the offset on, the sign bit masked; they lie inside HS (R192, R193). -/
theorem truncateHs_p_eq {HS : List Byte} (hlen : HS.length = 20) (d : Nat) {o : Nat}
    (ho : (HS.getD 19 0).toNat % 16 = o) :
    (truncateHs HS d).p = (HS.getD o 0 &&& 0x7F) ++ HS.getD (o + 1) 0 ++ HS.getD (o + 2) 0 ++ HS.getD (o + 3) 0 := by
  have hin : o + 3 < HS.length := by omega
  show be32 (slice HS (truncOffset HS).toNat 4) &&& 0x7FFFFFFF#32 = _
  rw [truncOffset_toNat, ho, be32_slice hin]
  simp only [List.getElem_eq_getD (0 : Byte)]
  exact append_and_valueMask _ _ _ _

theorem truncateHs_p_le (HS : List Byte) (d : Nat) : (truncateHs HS d).p.toNat ≤ 2 ^ 31 - 1 :=
  Nat.le_sub_one_of_lt (truncValue_lt HS)

theorem truncateHs_code_toNat (HS : List Byte) (d : Nat) :
    (truncateHs HS d).code.toNat = (truncateHs HS d).p.toNat % 10 ^ d :=
  codeValue_toNat _ d

theorem truncateHs_code_lt (HS : List Byte) (d : Nat) : (truncateHs HS d).code.toNat < 10 ^ d :=
  (truncateHs_code_toNat HS d).trans_lt (Nat.mod_lt _ (by positivity))

/-- P has at most ten digits. -/
theorem truncateHs_code_ten (HS : List Byte) : (truncateHs HS 10).code = (truncateHs HS 10).p := by
  have hp := truncateHs_p_le HS 10
  refine BitVec.eq_of_toNat_eq ?_
  rw [truncateHs_code_toNat, Nat.mod_eq_of_lt (by omega)]

/-- Settles O40: P is the masked concatenation of its four bytes, which is the document's shift-and-or. -/
theorem truncationFormulaAndRanges : Obligations.TruncationFormulaAndRanges := by
  intro HS d hlen _ _ t o
  have ho : o = (HS.getD 19 0).toNat % 16 := truncateHs_offset_toNat HS d
  refine ⟨ho, by omega, ?_, truncateHs_p_le HS d, truncateHs_code_toNat HS d, truncateHs_code_lt HS d,
    (truncateHs_code_le HS d).trans_lt (truncValue_lt HS), ?_⟩
  · exact (truncateHs_p_eq hlen d ho.symm).trans
      ((BitVec.setWidth_eq _).symm.trans BitVec.setWidth_append_append_append_eq_shiftLeft_setWidth_or)
  · rintro rfl
    exact truncateHs_code_ten HS

theorem append_toNat {m n : Nat} (x : BitVec m) (y : BitVec n) : (x ++ y).toNat = x.toNat * 2 ^ n + y.toNat := by
  rw [BitVec.toNat_append, ← Nat.shiftLeft_add_eq_or_of_lt y.isLt, Nat.shiftLeft_eq]

theorem append_four_toNat (a b c e : Byte) :
    (a ++ b ++ c ++ e).toNat = a.toNat * 2 ^ 24 + b.toNat * 2 ^ 16 + c.toNat * 2 ^ 8 + e.toNat := by
  simp only [append_toNat]
  omega

/-- P as a number (R193). -/
theorem truncateHs_p_toNat {HS : List Byte} (hlen : HS.length = 20) (d : Nat) {o : Nat}
    (ho : (HS.getD 19 0).toNat % 16 = o) :
    (truncateHs HS d).p.toNat = ((HS.getD o 0).toNat % 128) * 2 ^ 24 + (HS.getD (o + 1) 0).toNat * 2 ^ 16 +
      (HS.getD (o + 2) 0).toNat * 2 ^ 8 + (HS.getD (o + 3) 0).toNat := by
  have hmask : (HS.getD o 0 &&& 0x7F).toNat = (HS.getD o 0).toNat % 128 := Nat.and_two_pow_sub_one_eq_mod _ 7
  rw [truncateHs_p_eq hlen d ho, ← hmask]
  exact append_four_toNat _ _ _ _

/-! ## The code string (R195) -/

theorem codeString_eq_decimal (d : Nat) (code : Word) : codeString d code = decimal d code.toNat := by
  simp only [codeString, decimal, BitVec.ofNat_add]
  rfl

@[simp] theorem decimal_length (d n : Nat) : (decimal d n).length = d := by simp [decimal]

/-- The last character is the last digit, and the characters before it are the string of the other digits. -/
theorem decimal_succ (d n : Nat) : decimal (d + 1) n = decimal d (n / 10) ++ [BitVec.ofNat 8 (0x30 + n % 10)] := by
  have hdigit : ∀ i ∈ List.range d, n / 10 ^ (d - i) = n / 10 / 10 ^ (d - 1 - i) := fun i hi => by
    have hexp : d - i = d - 1 - i + 1 := by have := List.mem_range.mp hi; omega
    rw [hexp, Nat.pow_succ', Nat.div_div_eq_div_mul]
  simp only [decimal, List.range_succ, List.map_append, List.map_singleton, Nat.add_sub_cancel, Nat.sub_self, pow_zero,
    Nat.div_one]
  congr 1
  exact List.map_congr_left fun i hi => by rw [hdigit i hi]

theorem decimal_zero (d : Nat) : decimal d 0 = List.replicate d 0x30 := by
  simp [decimal, List.map_const']

theorem digitByte_toNat (n : Nat) : (BitVec.ofNat 8 (0x30 + n % 10)).toNat = 0x30 + n % 10 := by
  rw [BitVec.toNat_ofNat]
  omega

theorem decimal_isDigit {d n : Nat} {b : Byte} (h : b ∈ decimal d n) : 0x30 ≤ b.toNat ∧ b.toNat ≤ 0x39 := by
  obtain ⟨i, -, rfl⟩ := List.mem_map.mp h
  rw [digitByte_toNat]
  omega

/-- The number a string of ASCII digits reads as. -/
def decimalValue (S : List Byte) : Nat := S.foldl (fun n b => 10 * n + (b.toNat - 0x30)) 0

theorem decimalValue_append_singleton (S : List Byte) (b : Byte) :
    decimalValue (S ++ [b]) = 10 * decimalValue S + (b.toNat - 0x30) := by
  simp [decimalValue]

theorem decimalValue_decimal {d n : Nat} (h : n < 10 ^ d) : decimalValue (decimal d n) = n := by
  induction d generalizing n with
  | zero => exact (Nat.lt_one_iff.mp h).symm
  | succ d ih =>
    rw [decimal_succ, decimalValue_append_singleton, digitByte_toNat, ih (by omega)]
    omega

/-- Numbers below `10^d` have different strings. -/
theorem decimal_inj {d n n' : Nat} (hn : n < 10 ^ d) (hn' : n' < 10 ^ d) : decimal d n = decimal d n' ↔ n = n' :=
  ⟨fun h => by rw [← decimalValue_decimal hn, h, decimalValue_decimal hn'], fun h => h ▸ rfl⟩

/-- Settles O41: the string is `decimal`, which is read back by induction on the number of digits. -/
theorem codeStringIsTheDecimalCode : Obligations.CodeStringIsTheDecimalCode := by
  intro d code hcode
  rw [codeString_eq_decimal]
  refine ⟨decimal_length d _, fun i hi => ?_, fun b hb => decimal_isDigit hb, decimalValue_decimal hcode⟩
  rw [decimal, List.getElem?_map, List.getElem?_range hi]
  rfl

/-! ## The TOTP counter (R198) -/

/-- Settles O42: the floor of a floor is the floor by the product. -/
theorem totpCounterIsTheFloor : Obligations.TotpCounterIsTheFloor := by
  intro ms step _
  have hms : ms.toNat ≤ 2 ^ 64 - 1 := Nat.le_sub_one_of_lt ms.isLt
  rw [totpCounter_toNat]
  refine ⟨rfl, Nat.div_div_eq_div_mul _ _ _, ?_⟩
  exact (Nat.div_le_self _ _).trans (Nat.div_le_div_right hms)

/-! ## Candidates (R201) -/

theorem padCandidate_of_le {d : Nat} {cand : List Byte} (h : d ≤ cand.length) : padCandidate d cand = cand := by
  rw [padCandidate, Nat.sub_eq_zero_of_le h]
  rfl

theorem padCandidate_length (d : Nat) (cand : List Byte) : (padCandidate d cand).length = max d cand.length := by
  rw [padCandidate, List.length_append, List.length_replicate]
  omega

theorem padCandidate_codeString (d : Nat) (code : Word) : padCandidate d (codeString d code) = codeString d code :=
  padCandidate_of_le (codeString_length d code).ge

/-- Settles O44: a longer candidate differs in length, one with another byte in that byte; the empty one is padded to
the string of 0, and leading zeros removed are the zeros padded. -/
theorem candidateForms : Obligations.CandidateForms := by
  intro d cand code hcode
  refine ⟨fun _ => rfl, padCandidate_of_le, fun hlong heq => ?_, fun ⟨b, hb, hdigit⟩ heq => ?_, ?_,
    fun n rest hrest => ?_⟩
  · have hlen := congrArg List.length heq
    rw [codeString_length, padCandidate_length] at hlen
    omega
  · have hmem : b ∈ codeString d code := heq ▸ List.mem_append_right _ hb
    rw [codeString_eq_decimal] at hmem
    have := decimal_isDigit hmem
    omega
  · have hempty : padCandidate d [] = decimal d 0 := (List.append_nil _).trans (decimal_zero d).symm
    rw [codeString_eq_decimal, hempty, decimal_inj hcode (by positivity)]
    exact BitVec.toNat_inj (y := 0)
  · have hlen := congrArg List.length hrest
    rw [codeString_length, List.length_append, List.length_replicate] at hlen
    rw [hrest, padCandidate, show d - rest.length = n by omega]

/-! ## Verification (R200) -/

theorem verify_iff (K cand : List Byte) (T : DWord) (w d : Nat) :
    verify K cand T w d = true ↔ ∃ i, i ≤ 2 * w ∧
      codeString d (hotp K (bytesBe64 (T - BitVec.ofNat 64 w + BitVec.ofNat 64 i)) d).tr.code = padCandidate d cand := by
  simp only [verify, List.any_eq_true, List.mem_range, Nat.lt_succ_iff, attempt, beq_iff_eq]
  rfl

/-- The code of a counter that an attempt reaches verifies. -/
theorem verify_codeString_of_attempt (K : List Byte) {T C : DWord} {w i : Nat} (d : Nat) (hi : i ≤ 2 * w)
    (hC : T - BitVec.ofNat 64 w + BitVec.ofNat 64 i = C) :
    verify K (codeString d (hotp K (bytesBe64 C) d).tr.code) T w d = true :=
  (verify_iff ..).mpr ⟨i, hi, by rw [hC, padCandidate_codeString]⟩

/-- Settles O43: attempt `i` has the counter `T - w + i`, so attempts `w + δ` and `w - δ` those `δ` above and below. -/
theorem verifyIsTheOrOverTheWindow : Obligations.VerifyIsTheOrOverTheWindow := by
  intro K cand T w d hw
  refine ⟨verify_iff .., fun i j hi hj heq => ?_, fun δ hδ => ?_, fun δ hδ => ?_, ?_⟩
  · bv_omega
  · exact verify_codeString_of_attempt K (i := w + δ) d (by omega) (by bv_omega)
  · exact verify_codeString_of_attempt K (i := w - δ) d (by omega) (by bv_omega)
  · simp [verify_iff]

end Sys2Proof.Machine
end

section
/-! SUPPORT. The five commands of spec/42_otp.md: their register checks in order, the code string a success writes, and
the successes without output. -/

namespace Sys2Proof.Machine

open Sys2Proof.Statements

/-! ## Register checks -/

theorem RegCheck.fails_digits_eq_false {s : State} (h : DigitsLegal s) : RegCheck.fails .digits s = false := by
  obtain ⟨hlo, hhi⟩ := h
  rw [← Bool.not_eq_true, RegCheck.fails_digits]
  omega

theorem RegCheck.fails_digits_of_not_legal {s : State} (h : ¬ DigitsLegal s) : RegCheck.fails .digits s = true := by
  rw [RegCheck.fails_digits]
  unfold DigitsLegal at h
  omega

theorem RegCheck.fails_tstep_eq_false {s : State} (h : s.tstep ≠ 0) : RegCheck.fails .tstep s = false :=
  beq_eq_false_iff_ne.mpr h

theorem RegCheck.fails_inNot20_eq_false {s : State} (h : s.inLen = 20) : RegCheck.fails .inNot20 s = false :=
  bne_eq_false_iff_eq.mpr h

/-! ## The errors of the checks (R202 to R206) -/

section
variable {i : Instr} {post : List RegCheck} {s : State}

theorem exec_badDigits (hchecks : checksOf i = .digits :: post) (hd : ¬ DigitsLegal s) :
    ∃ t, exec i s = .next t ∧ ErrorEnd s t 0x02 0 :=
  exec_errorEnd_of_first_failing (pre := []) (c := .digits) hchecks (by simp) (RegCheck.fails_digits_of_not_legal hd)

theorem exec_badTstep (hchecks : checksOf i = .digits :: .tstep :: post) (hd : DigitsLegal s) (hstep : s.tstep = 0) :
    ∃ t, exec i s = .next t ∧ ErrorEnd s t 0x03 0 :=
  exec_errorEnd_of_first_failing (pre := [.digits]) (c := .tstep) hchecks
    (List.forall_mem_singleton.mpr (RegCheck.fails_digits_eq_false hd)) ((RegCheck.fails_tstep s).mpr hstep)

theorem exec_keyTooLong (hchecks : checksOf i = .digits :: .tstep :: .keyLong :: post) (hd : DigitsLegal s)
    (hstep : s.tstep ≠ 0) (hlong : 64 < s.keyLen) : ∃ t, exec i s = .next t ∧ ErrorEnd s t 0x04 0 :=
  exec_errorEnd_of_first_failing (pre := [.digits, .tstep]) (c := .keyLong) hchecks
    (by simp [RegCheck.fails_digits_eq_false hd, RegCheck.fails_tstep_eq_false hstep])
    ((RegCheck.fails_keyLong s).mpr hlong)

end

/-! ## The results of a success -/

theorem Results.write_truncation_of_some {r : Results} {tr : Truncation} (h : r.truncation = some tr) (s : State) :
    (r.write s).code = tr.code ∧ (r.write s).trunc = tr.p ∧ (r.write s).dtoff = tr.offset := by
  show r.truncation.elim s.code _ = _ ∧ r.truncation.elim s.trunc _ = _ ∧ r.truncation.elim s.dtoff _ = _
  rw [h]
  exact ⟨rfl, rfl, rfl⟩

/-- A truncation that a success writes is the one of the document's own formula (R192 to R194). -/
theorem Results.write_truncationIs {r : Results} {HS : List Byte} {d : Nat} (h : r.truncation = some (truncateHs HS d))
    (hlen : HS.length = 20) (s : State) : TruncationIs (r.write s) HS d := by
  obtain ⟨hcode, htrunc, hdtoff⟩ := Results.write_truncation_of_some h s
  have hp := truncateHs_p_toNat hlen d rfl
  exact ⟨by rw [hdtoff, truncateHs_offset_toNat], by rw [htrunc, hp], by rw [hcode, truncateHs_code_toNat, hp]⟩

/-- What a success leaves whose results are the truncation of `HS` and its code string (R202, R203, R205). -/
structure CodeWritten (s t : State) (HS : List Byte) : Prop where
  truncation : TruncationIs t HS s.cfgDigits
  output : Output s t (decimal s.cfgDigits t.code.toNat)
  outlen : t.outlen.toNat = s.cfgDigits
  inputs : InputsKept s t

theorem Results.write_codeWritten {r : Results} {HS : List Byte} {s : State} (hw : s.params.wf) (hd : DigitsLegal s)
    (htr : r.truncation = some (truncateHs HS s.cfgDigits))
    (hout : r.out = codeString s.cfgDigits (truncateHs HS s.cfgDigits).code) (hlen : HS.length = 20) (d : Nat) :
    CodeWritten s (r.write { s with draws := d }) HS := by
  have hfit : r.out.length ≤ s.params.outBufBytes := by
    have hdigits := hd.2
    have hbuf := (Params.outBufBytes_bounds hw).1
    rw [hout, codeString_length]
    omega
  have hdecimal : decimal s.cfgDigits (r.write { s with draws := d }).code.toNat = r.out := by
    rw [(Results.write_truncation_of_some htr _).1, hout, codeString_eq_decimal]
  have houtput := hdecimal ▸ Results.write_output hw hfit d
  exact {
    truncation := Results.write_truncationIs htr hlen _
    output := houtput
    outlen := houtput.outlen.trans (decimal_length _ _)
    inputs := Results.write_inputsKept hw hfit d }

/-- A success without output makes every OUT byte unspecified, whatever the size of OUT. -/
theorem Results.write_noOutput {r : Results} (h : r.out = []) (s : State) (d : Nat) :
    Output s (r.write { s with draws := d }) [] ∧ InputsKept s (r.write { s with draws := d }) := by
  have hlen : r.out.length = 0 := congrArg List.length h
  have hread := Results.write_read? (r := r) (s := { s with draws := d }) (by omega) (by omega)
  constructor
  · exact {
      fits := Nat.zero_le _
      outlen := (Results.write_outlen (by omega) _).trans hlen
      bytes := fun j hj => absurd hj (Nat.not_lt_zero j)
      stale := fun a ha _ => (hread a).trans ((if_pos ha).trans (by rw [h, List.getElem?_nil])) }
  · exact ⟨rfl, rfl, rfl, rfl, rfl, fun a ha => (hread a).trans (if_neg ha), rfl, rfl, rfl, rfl⟩

/-! ## HOTP_GEN and HOTP_TRUNC (R202, R203) -/

/-- Settles O26: its checks are DIGITS, then the key length, and its results those of HOTP with COUNTER. -/
theorem hotpGenResult : Obligations.HotpGenResult := by
  refine ⟨decode_encode .hotpGen, fun s hw hd hkey => ?_, fun s hd => ?_, fun s hd hlong => ?_⟩
  · have hpass : ChecksPass .hotpGen s :=
      List.forall_mem_cons.mpr ⟨RegCheck.fails_digits_eq_false hd,
        List.forall_mem_singleton.mpr (RegCheck.fails_keyLong_eq_false hkey)⟩
    obtain ⟨n, hexec⟩ := exec_success hpass rfl
    obtain ⟨htrunc, hout, houtlen, hinputs⟩ :=
      Results.write_codeWritten hw hd (r := hotpResults s s.readKey.1 s.counter) rfl rfl (hmac_length _ _) n
    exact ⟨_, hexec, Results.write_digestIs rfl _, htrunc, hout, houtlen, Results.write_success _ _, hinputs,
      Results.write_counterKept rfl s n⟩
  · exact exec_badDigits rfl hd
  · exact exec_errorEnd_of_first_failing (pre := [.digits]) (c := .keyLong) rfl
      (List.forall_mem_singleton.mpr (RegCheck.fails_digits_eq_false hd)) ((RegCheck.fails_keyLong s).mpr hlong)

/-- Settles O27: its checks are DIGITS, then the input length, and it truncates the 20 bytes it reads. -/
theorem hotpTruncResult : Obligations.HotpTruncResult := by
  refine ⟨decode_encode .hotpTrunc, fun s hw hd hlen => ?_, fun s hd => ?_, fun s hd hlen => ?_⟩
  · have hpass : ChecksPass .hotpTrunc s :=
      List.forall_mem_cons.mpr ⟨RegCheck.fails_digits_eq_false hd,
        List.forall_mem_singleton.mpr (RegCheck.fails_inNot20_eq_false hlen)⟩
    have hread : s.readIn.1.length = 20 := (s.readSpan_length _ _).trans hlen
    obtain ⟨n, hexec⟩ := exec_success hpass rfl
    obtain ⟨htrunc, hout, houtlen, hinputs⟩ :=
      Results.write_codeWritten hw hd (r := resultsOf .hotpTrunc s [] s.readIn.1) rfl rfl hread n
    exact ⟨_, hexec, htrunc, hout, houtlen, Results.write_success _ _, hinputs, Results.write_digestKept rfl s n,
      Results.write_counterKept rfl s n⟩
  · exact exec_badDigits rfl hd
  · exact exec_errorEnd_of_first_failing (pre := [.digits]) (c := .inNot20) rfl
      (List.forall_mem_singleton.mpr (RegCheck.fails_digits_eq_false hd)) ((RegCheck.fails_inNot20 s).mpr hlen)

/-! ## TOTP_COUNTER, TOTP_GEN and TOTP_VERIFY (R204 to R206) -/

/-- Settles O28: its one check is TSTEP, and its result is the counter, without output. -/
theorem totpCounterResult : Obligations.TotpCounterResult := by
  refine ⟨decode_encode .totpCounter, fun s hstep => ?_, fun s hstep => ?_⟩
  · have hpass : ChecksPass .totpCounter s := List.forall_mem_singleton.mpr (RegCheck.fails_tstep_eq_false hstep)
    obtain ⟨n, hexec⟩ := exec_success hpass rfl
    obtain ⟨hout, hinputs⟩ := Results.write_noOutput (r := resultsOf .totpCounter s [] []) rfl s n
    exact ⟨_, hexec, totpCounter_toNat _ _, hout, Results.write_success _ _, hinputs,
      Results.write_digestKept rfl s n, Results.write_truncationKept rfl s n⟩
  · exact exec_errorEnd_of_first_failing (pre := []) (c := .tstep) rfl (by simp) ((RegCheck.fails_tstep s).mpr hstep)

/-- Settles O29: its checks are DIGITS, TSTEP and the key length, and its results those of HOTP with the TOTP
counter. -/
theorem totpGenResult : Obligations.TotpGenResult := by
  refine ⟨decode_encode .totpGen, fun s hw hd hstep hkey => ?_, fun s hd => ?_, fun s hd hstep => ?_,
    fun s hd hstep hlong => ?_⟩
  · have hpass : ChecksPass .totpGen s := by
      simp [ChecksPass, checksOf, RegCheck.fails_digits_eq_false hd, RegCheck.fails_tstep_eq_false hstep,
        RegCheck.fails_keyLong_eq_false hkey]
    obtain ⟨n, hexec⟩ := exec_success hpass rfl
    obtain ⟨htrunc, hout, houtlen, hinputs⟩ :=
      Results.write_codeWritten hw hd (r := resultsOf .totpGen s s.readKey.1 []) rfl rfl (hmac_length _ _) n
    exact ⟨_, hexec, totpCounter_toNat _ _, Results.write_digestIs rfl _, htrunc, hout, houtlen,
      Results.write_success _ _, hinputs⟩
  · exact exec_badDigits rfl hd
  · exact exec_badTstep rfl hd hstep
  · exact exec_keyTooLong rfl hd hstep hlong

/-- Settles O30: its checks are DIGITS, TSTEP, the key length and the input length; its results are the counter and
the match of `verify`, without output. -/
theorem totpVerifyResult : Obligations.TotpVerifyResult := by
  refine ⟨decode_encode .totpVerify, fun s _ hd hstep hkey hlen => ?_, fun s hd => ?_, fun s hd hstep => ?_,
    fun s hd hstep hlong => ?_, fun s hd hstep hkey hlong => ?_⟩
  · have hpass : ChecksPass .totpVerify s := by
      simp [ChecksPass, checksOf, RegCheck.fails_digits_eq_false hd, RegCheck.fails_tstep_eq_false hstep,
        RegCheck.fails_keyLong_eq_false hkey, RegCheck.fails_inLong_eq_false hlen]
    obtain ⟨n, hexec⟩ := exec_success hpass rfl
    obtain ⟨hout, hinputs⟩ :=
      Results.write_noOutput (r := resultsOf .totpVerify s s.readKey.1 s.readKey.2.readIn.1) rfl s n
    refine ⟨_, _, hexec, totpCounter_toNat _ _, hout, Results.write_success _ _, hinputs,
      Results.write_digestKept rfl s n, Results.write_truncationKept rfl s n, ?_⟩
    simp only [← codeString_eq_decimal]
    exact verify_iff ..
  · exact exec_badDigits rfl hd
  · exact exec_badTstep rfl hd hstep
  · exact exec_keyTooLong rfl hd hstep hlong
  · exact exec_errorEnd_of_first_failing (pre := [.digits, .tstep, .keyLong]) (c := .inLong) rfl
      (by simp [RegCheck.fails_digits_eq_false hd, RegCheck.fails_tstep_eq_false hstep,
        RegCheck.fails_keyLong_eq_false hkey]) ((RegCheck.fails_inLong s).mpr hlong)

end Sys2Proof.Machine
end

section
/-! SUPPORT. Bit streams, most significant bit first: of a word, of a byte sequence, of the Base32 accumulator and of a
symbol (spec/43_base32.md R241, R242, R246). -/

namespace Sys2Proof.Machine

open Sys2Proof.Statements

/-! ## The bits of a word -/

/-- The bits of a word, its most significant first. -/
def msbBits {w : Nat} (v : BitVec w) : List Bool := (List.range w).map v.getMsbD

@[simp] theorem msbBits_length {w : Nat} (v : BitVec w) : (msbBits v).length = w := by simp [msbBits]

theorem msbBits_getElem? {w k : Nat} (v : BitVec w) (hk : k < w) : (msbBits v)[k]? = some (v.getMsbD k) := by
  simp [msbBits, hk]

theorem msbBits_inj {w : Nat} {u v : BitVec w} (h : msbBits u = msbBits v) : u = v :=
  BitVec.eq_of_getMsbD_eq fun k hk => by simpa [msbBits_getElem? _ hk] using congrArg (·[k]?) h

theorem msbBits_append {m n : Nat} (u : BitVec m) (v : BitVec n) : msbBits (u ++ v) = msbBits u ++ msbBits v := by
  simp only [msbBits, List.range_add, List.map_append, List.map_map]
  congr 1
  · refine List.map_congr_left fun k hk => ?_
    rw [BitVec.getMsbD_append, if_neg (by simpa using hk)]
  · refine List.map_congr_left fun k _ => ?_
    simp [BitVec.getMsbD_append]

theorem msbBits_zero (w : Nat) : msbBits 0#w = List.replicate w false := by
  simp [msbBits, List.eq_replicate_iff]

/-! ## Streams of words of one width -/

section
variable {α : Type} {f : α → List Bool} {w : Nat} (hf : ∀ a, (f a).length = w)
include hf

theorem flatMap_length_of_const (l : List α) : (l.flatMap f).length = w * l.length := by
  induction l with
  | nil => rfl
  | cons a l ih => rw [List.flatMap_cons, List.length_append, hf, ih, List.length_cons]; ring

/-- Bit `n` of the stream is bit `n % w` of word `n / w`. -/
theorem flatMap_getElem?_of_const (hw : 0 < w) (l : List α) (n : Nat) :
    (l.flatMap f)[n]? = l[n / w]?.bind fun a => (f a)[n % w]? := by
  induction l generalizing n with
  | nil => rfl
  | cons a l ih =>
    rw [List.flatMap_cons]
    by_cases hn : n < w
    · rw [List.getElem?_append_left (by rwa [hf]), Nat.div_eq_of_lt hn, Nat.mod_eq_of_lt hn]
      rfl
    · obtain ⟨m, rfl⟩ := Nat.exists_eq_add_of_le (Nat.le_of_not_lt hn)
      rw [List.getElem?_append_right (by rw [hf]; omega), hf, Nat.add_sub_cancel_left, ih, Nat.add_div_left m hw,
        Nat.add_mod_left, List.getElem?_cons_succ]

end

theorem flatMap_msbBits_length {w : Nat} (l : List (BitVec w)) : (l.flatMap msbBits).length = w * l.length :=
  flatMap_length_of_const msbBits_length l

/-- Bit `n` of a byte sequence is bit `n % 8` of byte `n / 8`. -/
theorem flatMap_msbBits_getElem? (S : List Byte) (n : Nat) :
    (S.flatMap msbBits)[n]? = S[n / 8]?.map fun b => b.getMsbD (n % 8) := by
  rw [flatMap_getElem?_of_const msbBits_length (Nat.zero_lt_succ 7), Option.map_eq_bind]
  congr 1
  exact funext fun b => msbBits_getElem? b (Nat.mod_lt n (Nat.zero_lt_succ 7))

theorem flatMap_msbBits_inj {w : Nat} {l l' : List (BitVec w)} (hlen : l.length = l'.length)
    (h : l.flatMap msbBits = l'.flatMap msbBits) : l = l' := by
  induction l generalizing l' with
  | nil => exact (List.eq_nil_of_length_eq_zero hlen.symm).symm
  | cons v l ih =>
    cases l' with
    | nil => cases hlen
    | cons v' l' =>
      obtain ⟨hv, hl⟩ := List.append_inj h (by simp)
      rw [msbBits_inj hv, ih (Nat.succ.inj hlen) hl]

/-! ## The accumulator (R41) -/

/-- The buffered bits, the oldest first. -/
def BitAcc.bits (a : BitAcc) : List Bool := msbBits (a.acc.setWidth a.n)

@[simp] theorem BitAcc.bits_length (a : BitAcc) : a.bits.length = a.n := msbBits_length _

theorem setWidth_push {n w : Nat} (hn : n + w ≤ 12) (acc : BitVec 12) (v : BitVec w) :
    ((acc <<< w) ||| v.setWidth 12).setWidth (n + w) = acc.setWidth n ++ v := by
  ext i hi
  simp only [BitVec.getElem_setWidth, BitVec.getLsbD_or, BitVec.getLsbD_shiftLeft, BitVec.getLsbD_setWidth,
    BitVec.getElem_append]
  split
  · next h => simp [h, show i < 12 by omega, ← BitVec.getLsbD_eq_getElem]
  · next h => simp [h, show i < 12 by omega, BitVec.getLsbD_of_ge v i (by omega)]

theorem BitAcc.bits_push {n w : Nat} (hn : n + w ≤ 12) (acc : BitVec 12) (v : BitVec w) :
    BitAcc.bits ⟨(acc <<< w) ||| v.setWidth 12, n + w⟩ = BitAcc.bits ⟨acc, n⟩ ++ msbBits v := by
  show msbBits (((acc <<< w) ||| v.setWidth 12).setWidth (n + w)) = _
  rw [setWidth_push hn, msbBits_append]
  rfl

theorem BitAcc.bits_pushByte {a : BitAcc} (ha : a.n < 5) (b : Byte) :
    (a.pushByte b).bits = a.bits ++ msbBits b := BitAcc.bits_push (by omega) a.acc b

theorem BitAcc.bits_pushSymbol {a : BitAcc} (ha : a.n < 8) (v : BitVec 5) :
    (a.pushSymbol v).bits = a.bits ++ msbBits v := BitAcc.bits_push (by omega) a.acc v

/-- The `w` oldest bits are the word above the other `m`; which bits stand above the count is of no account. -/
theorem BitAcc.bits_pop (w m : Nat) {acc acc' : BitVec 12} (h : acc'.setWidth m = acc.setWidth m) :
    msbBits ((acc >>> m).setWidth w) ++ BitAcc.bits ⟨acc', m⟩ = BitAcc.bits ⟨acc, w + m⟩ := by
  show _ ++ msbBits (acc'.setWidth m) = msbBits (acc.setWidth (w + m))
  rw [h, ← msbBits_append]
  congr 1
  ext i hi
  simp only [BitVec.getElem_append, BitVec.getElem_setWidth, BitVec.getLsbD_ushiftRight]
  split
  · rfl
  · next hlt => rw [show m + (i - m) = i by omega]

end Sys2Proof.Machine
end

section
/-! SUPPORT. The Base32 symbols: their values in either case, and the two readings of a value in the statements
(spec/43_base32.md R240, R241). -/

namespace Sys2Proof.Machine

open Sys2Proof.Statements

theorem rev_isSome_iff (c : Byte) : (rev c).isSome ↔ IsSymbol c := by
  have hle (k : Byte) : k ≤ c ↔ k.toNat ≤ c.toNat := BitVec.le_def
  have hge (k : Byte) : c ≤ k ↔ c.toNat ≤ k.toNat := BitVec.le_def
  simp only [rev, IsSymbol, hle, hge]
  split_ifs <;> simp_all

/-- The value of a symbol; 0 where the byte is none. -/
def symbolValue (c : Byte) : BitVec 5 := (rev c).getD 0

/-- The five bits of a symbol's value. -/
def symbolBits (c : Byte) : List Bool := msbBits (symbolValue c)

@[simp] theorem symbolBits_length (c : Byte) : (symbolBits c).length = 5 := msbBits_length _

theorem rev_of_isSymbol {c : Byte} (h : IsSymbol c) : rev c = some (symbolValue c) := by
  obtain ⟨v, hv⟩ := Option.isSome_iff_exists.mp ((rev_isSome_iff c).mpr h)
  rw [symbolValue, hv, Option.getD_some]

theorem rev_of_not_isSymbol {c : Byte} (h : ¬ IsSymbol c) : rev c = none := by
  rwa [← rev_isSome_iff, Option.not_isSome_iff_eq_none] at h

theorem symbolValue_sym (v : BitVec 5) : symbolValue (sym v) = v := by
  revert v
  decide

theorem inAlphabet_sym (v : BitVec 5) : InAlphabet (sym v) := by
  revert v
  unfold InAlphabet
  decide

theorem isSymbol_of_inAlphabet {c : Byte} (h : InAlphabet c) : IsSymbol c := h.imp_right .inr

theorem ne_padChar_of_isSymbol {c : Byte} (h : IsSymbol c) : c ≠ padChar := by
  rintro rfl
  revert h
  unfold IsSymbol
  decide

/-- The value of a symbol, in the words of R241. -/
theorem symbolValue_toNat {c : Byte} (h : IsSymbol c) :
    (symbolValue c).toNat =
      if c.toNat ≤ 0x37 then c.toNat - 0x32 + 26 else if c.toNat ≤ 0x5A then c.toNat - 0x41 else c.toNat - 0x61 := by
  revert h
  unfold IsSymbol
  revert c
  decide

theorem symbolValue_toNat_of_inAlphabet {c : Byte} (h : InAlphabet c) :
    (symbolValue c).toNat = if c.toNat ≤ 0x37 then c.toNat - 0x32 + 26 else c.toNat - 0x41 := by
  rw [symbolValue_toNat (isSymbol_of_inAlphabet h)]
  unfold InAlphabet at h
  split_ifs <;> omega

theorem symbolBits_getElem? (c : Byte) {k : Nat} (hk : k < 5) :
    (symbolBits c)[k]? = some ((symbolValue c).toNat.testBit (4 - k)) := by
  rw [symbolBits, msbBits_getElem? _ hk, BitVec.getMsbD, decide_eq_true hk, Bool.true_and, BitVec.testBit_toNat]

/-! ## Streams of symbols -/

theorem flatMap_symbolBits_length (syms : List Byte) : (syms.flatMap symbolBits).length = 5 * syms.length :=
  flatMap_length_of_const symbolBits_length syms

/-- Bit `n` of a sequence of symbols is bit `n % 5` of the value of symbol `n / 5`. -/
theorem flatMap_symbolBits_getElem? (syms : List Byte) (n : Nat) :
    (syms.flatMap symbolBits)[n]? = syms[n / 5]?.map fun c => (symbolValue c).toNat.testBit (4 - n % 5) := by
  rw [flatMap_getElem?_of_const symbolBits_length (Nat.zero_lt_succ 4), Option.map_eq_bind]
  congr 1
  exact funext fun c => symbolBits_getElem? c (Nat.mod_lt n (Nat.zero_lt_succ 4))

end Sys2Proof.Machine
end

section
/-! SUPPORT. Base32 encoding: the accumulator loop writes the bits of the input through the alphabet, five at a time
(spec/43_base32.md R242 to R244). -/

namespace Sys2Proof.Machine

open Sys2Proof.Statements

/-! ## The loops -/

/-- The mask of R242 keeps the buffered bits. -/
theorem setWidth_and_mask (m : Nat) (acc : BitVec 12) :
    (acc &&& BitVec.ofNat 12 (2 ^ m - 1)).setWidth m = acc.setWidth m := by
  ext i hi
  simp only [BitVec.getElem_setWidth, BitVec.getLsbD_and, BitVec.getLsbD_ofNat, Nat.testBit_two_pow_sub_one,
    decide_eq_true hi, Bool.and_true]
  by_cases h : i < 12
  · rw [decide_eq_true h, Bool.and_true]
  · rw [BitVec.getLsbD_of_ge _ _ (Nat.le_of_not_lt h), Bool.false_and]

/-- The symbols drained are those of the oldest bits, and the others stay. -/
theorem drainSymbols_bits (fuel : Nat) (a : BitAcc) :
    (drainSymbols fuel a).1.flatMap symbolBits ++ (drainSymbols fuel a).2.bits = a.bits := by
  induction fuel generalizing a with
  | zero => rfl
  | succ fuel ih =>
    rw [drainSymbols]
    split
    · next h =>
      rw [List.flatMap_cons, List.append_assoc, ih, symbolBits, symbolValue_sym,
        BitAcc.bits_pop 5 _ (setWidth_and_mask _ a.acc), Nat.add_sub_cancel' h]
    · rfl

theorem inAlphabet_of_mem_drainSymbols {fuel : Nat} {a : BitAcc} {c : Byte} (h : c ∈ (drainSymbols fuel a).1) :
    InAlphabet c := by
  induction fuel generalizing a with
  | zero => cases h
  | succ fuel ih =>
    rw [drainSymbols] at h
    split at h
    · rcases List.mem_cons.mp h with rfl | h
      · exact inAlphabet_sym _
      · exact ih h
    · cases h

/-- The tail's symbol is its bits and zeros. -/
theorem symbolBits_tail {a : BitAcc} (ha : a.n < 5) :
    symbolBits (sym ((a.acc <<< (5 - a.n)).setWidth 5)) = a.bits ++ List.replicate (5 - a.n) false := by
  have hpush := BitAcc.bits_push (n := a.n) (w := 5 - a.n) (by omega) a.acc 0#(5 - a.n)
  rw [Nat.add_sub_cancel' ha.le, msbBits_zero] at hpush
  rw [symbolBits, symbolValue_sym]
  rwa [BitVec.setWidth_zero, BitVec.or_zero] at hpush

/-- The symbols are the bits of the accumulator and of the input, padded to whole symbols with zeros. -/
theorem encodeSymbols_bits (a : BitAcc) (S : List Byte) (ha : a.n < 5) :
    ∃ z < 5, (encodeSymbols a S).flatMap symbolBits = a.bits ++ S.flatMap msbBits ++ List.replicate z false := by
  induction S generalizing a with
  | nil =>
    rw [encodeSymbols]
    split
    · exact ⟨5 - a.n, by omega, by rw [List.flatMap_singleton, symbolBits_tail ha, List.flatMap_nil, List.append_nil]⟩
    · next h =>
      have : a.bits = [] := List.eq_nil_of_length_eq_zero (by rw [BitAcc.bits_length]; omega)
      exact ⟨0, by omega, by simp [this]⟩
  | cons b bs ih =>
    have hn := (drainSymbols_length (a.pushByte b).n (a.pushByte b) (by omega)).2
    obtain ⟨z, hz, hbits⟩ := ih (drainSymbols (a.pushByte b).n (a.pushByte b)).2 (by omega)
    refine ⟨z, hz, ?_⟩
    simp only [encodeSymbols, List.flatMap_append, hbits]
    rw [← List.append_assoc, ← List.append_assoc, drainSymbols_bits, BitAcc.bits_pushByte ha]
    simp

theorem inAlphabet_of_mem_encodeSymbols {a : BitAcc} {S : List Byte} {c : Byte} (h : c ∈ encodeSymbols a S) :
    InAlphabet c := by
  induction S generalizing a with
  | nil =>
    rw [encodeSymbols] at h
    split at h
    · exact List.mem_singleton.mp h ▸ inAlphabet_sym _
    · cases h
  | cons b bs ih => exact (List.mem_append.mp h).elim inAlphabet_of_mem_drainSymbols ih

/-! ## The encoding -/

/-- The symbols of an encoding, before the padding. -/
def b32Symbols (S : List Byte) : List Byte := encodeSymbols ⟨0, 0⟩ S

theorem b32Symbols_bits (S : List Byte) :
    ∃ z < 5, (b32Symbols S).flatMap symbolBits = S.flatMap msbBits ++ List.replicate z false :=
  encodeSymbols_bits ⟨0, 0⟩ S (Nat.zero_lt_succ 4)

theorem b32Symbols_length (S : List Byte) : (b32Symbols S).length = (8 * S.length + 4) / 5 := by
  rw [b32Symbols, encodeSymbols_length _ _ (Nat.zero_lt_succ 4), Nat.zero_add]

theorem inAlphabet_of_mem_b32Symbols {S : List Byte} {c : Byte} (h : c ∈ b32Symbols S) : InAlphabet c :=
  inAlphabet_of_mem_encodeSymbols h

theorem b32Encode_eq (S : List Byte) :
    b32Encode S = b32Symbols S ++ List.replicate ((8 - (b32Symbols S).length % 8) % 8) padChar := rfl

/-- Settles O45: the symbols are counted by bits, and the padding by the symbols. -/
theorem b32EncodeLengthAndPadding : Obligations.B32EncodeLengthAndPadding := by
  intro S
  have hlen := b32Encode_length S
  refine ⟨b32Symbols S, ?_, b32Symbols_length S, fun c => inAlphabet_of_mem_b32Symbols, hlen, fun p hp => ?_,
    fun p hp => ?_⟩
  · rw [b32Encode_eq, b32Symbols_length]
    congr 2
    split_ifs <;> omega
  · rw [hlen, Params.outBufBytes]
    omega
  · rw [hlen, Params.outBufBytes, hp]

/-- Settles O46: bit `k` of symbol `j` is bit `5j + k` of the symbols' stream, which is the input's and then zeros. -/
theorem b32EncodeWritesTheBitStream : Obligations.B32EncodeWritesTheBitStream := by
  intro S
  refine ⟨b32Symbols S, _, b32Encode_eq S, by omega, by omega, b32Symbols_length S, fun j k hj hk => ?_⟩
  have hsym : (b32Symbols S)[j]? = some (b32Symbols S)[j] := List.getElem?_eq_getElem hj
  have hα := inAlphabet_of_mem_b32Symbols (List.getElem_mem hj)
  refine ⟨_, hsym, hα, ?_⟩
  dsimp only
  rw [← symbolValue_toNat_of_inAlphabet hα]
  obtain ⟨z, -, hbits⟩ := b32Symbols_bits S
  have hbit := flatMap_symbolBits_getElem? (b32Symbols S) (5 * j + k)
  rw [show (5 * j + k) / 5 = j by omega, show (5 * j + k) % 5 = k by omega, hsym, Option.map_some, hbits] at hbit
  split
  · next h =>
    have hin : (5 * j + k) / 8 < S.length := by omega
    rw [List.getElem?_append_left (by rwa [flatMap_msbBits_length]), flatMap_msbBits_getElem?,
      List.getElem?_eq_getElem hin, Option.map_some] at hbit
    rw [List.getD_eq_getElem _ _ hin]
    exact (Option.some.inj hbit).symm
  · next h =>
    rw [List.getElem?_append_right (by rw [flatMap_msbBits_length]; omega)] at hbit
    exact List.eq_of_mem_replicate (List.mem_of_getElem? hbit)

end Sys2Proof.Machine
end

section
/-! SUPPORT. Base32 decoding: the accumulator loop writes the symbols' bits, eight at a time, up to the first '=' or the
first byte that is no symbol (spec/43_base32.md R245 to R248). -/

namespace Sys2Proof.Machine

open Sys2Proof.Statements

/-! ## The loop -/

/-- A sequence where decoding stops: nothing, or '=' and anything (R245). -/
def StopsDecoding (rest : List Byte) : Prop := rest = [] ∨ ∃ r, rest = 0x3D :: r

theorem decodeFrom_of_stops {rest : List Byte} (h : StopsDecoding rest) (i : Nat) (a : BitAcc) :
    decodeFrom i a rest = .ok [] := by
  rcases h with rfl | ⟨r, rfl⟩ <;> rfl

theorem decodeFrom_cons_invalid {c : Byte} (hpad : c ≠ padChar) (hc : ¬ IsSymbol c) (i : Nat) (a : BitAcc)
    (cs : List Byte) : decodeFrom i a (c :: cs) = .error i := by
  rw [decodeFrom, if_neg hpad, rev_of_not_isSymbol hc]

/-- One symbol: its bits join the buffered ones, and a byte is emitted where they make one. -/
theorem decodeFrom_cons_symbol {c : Byte} (hc : IsSymbol c) (i : Nat) {a : BitAcc} (ha : a.n < 8) (cs : List Byte) :
    ∃ (out : List Byte) (a' : BitAcc), a'.n < 8 ∧ out.flatMap msbBits ++ a'.bits = a.bits ++ symbolBits c ∧
      decodeFrom i a (c :: cs) = (decodeFrom (i + 1) a' cs).map (out ++ ·) := by
  have hpush : (a.pushSymbol (symbolValue c)).bits = a.bits ++ symbolBits c := BitAcc.bits_pushSymbol ha _
  have hn : (a.pushSymbol (symbolValue c)).n = a.n + 5 := rfl
  rw [decodeFrom, if_neg (ne_padChar_of_isSymbol hc), rev_of_isSymbol hc]
  dsimp only
  generalize a.pushSymbol (symbolValue c) = b at hpush hn ⊢
  split
  · next h =>
    have hpop := BitAcc.bits_pop 8 (b.n - 8) (acc := b.acc) rfl
    rw [Nat.add_sub_cancel' h] at hpop
    refine ⟨[(b.acc >>> (b.n - 8)).setWidth 8], ⟨b.acc, b.n - 8⟩, by dsimp only; omega, ?_, ?_⟩
    · rw [List.flatMap_singleton, hpop, hpush]
    · cases decodeFrom (i + 1) ⟨b.acc, b.n - 8⟩ cs <;> rfl
  · next h =>
    refine ⟨[], b, by omega, hpush, ?_⟩
    cases decodeFrom (i + 1) b cs <;> rfl

/-- Symbols up to where decoding stops give the bytes of the bits, fewer than eight of which are left over. -/
theorem decodeFrom_symbols {syms rest : List Byte} (hsyms : ∀ c ∈ syms, IsSymbol c) (hrest : StopsDecoding rest)
    (i : Nat) {a : BitAcc} (ha : a.n < 8) :
    ∃ D left, decodeFrom i a (syms ++ rest) = .ok D ∧ left.length < 8 ∧
      D.flatMap msbBits ++ left = a.bits ++ syms.flatMap symbolBits := by
  induction syms generalizing i a with
  | nil => exact ⟨[], a.bits, decodeFrom_of_stops hrest i a, by simpa using ha, by simp⟩
  | cons c cs ih =>
    obtain ⟨hc, hcs⟩ := List.forall_mem_cons.mp hsyms
    obtain ⟨out, a', ha', hbits, hdecode⟩ := decodeFrom_cons_symbol hc i ha (cs ++ rest)
    obtain ⟨D, left, hD, hleft, hDbits⟩ := ih hcs (i + 1) ha'
    refine ⟨out ++ D, left, by rw [List.cons_append, hdecode, hD]; rfl, hleft, ?_⟩
    rw [List.flatMap_append, List.append_assoc, hDbits, ← List.append_assoc, hbits, List.append_assoc,
      List.flatMap_cons]

theorem b32Decode_symbols {syms rest : List Byte} (hsyms : ∀ c ∈ syms, IsSymbol c) (hrest : StopsDecoding rest) :
    ∃ D left, b32Decode (syms ++ rest) = .ok D ∧ left.length < 8 ∧
      D.flatMap msbBits ++ left = syms.flatMap symbolBits :=
  decodeFrom_symbols hsyms hrest 0 (a := ⟨0, 0⟩) (Nat.zero_lt_succ 7)

/-- Settles O49: bit `k` of byte `j` is bit `8j + k` of the symbols' stream. -/
theorem b32DecodeReadsTheBitStream : Obligations.B32DecodeReadsTheBitStream := by
  intro syms rest hsyms hrest
  obtain ⟨D, left, hD, hleft, hbits⟩ := b32Decode_symbols hsyms hrest
  have hlen := congrArg List.length hbits
  rw [List.length_append, flatMap_msbBits_length, flatMap_symbolBits_length] at hlen
  refine ⟨D, hD, by omega, fun j k hj hk b c hb hc => ?_⟩
  dsimp only
  rw [← symbolValue_toNat (hsyms c (List.mem_of_getElem? hc))]
  have hbyte := flatMap_msbBits_getElem? D (8 * j + k)
  have hsym := flatMap_symbolBits_getElem? syms (8 * j + k)
  rw [show (8 * j + k) / 8 = j by omega, show (8 * j + k) % 8 = k by omega, hb, Option.map_some] at hbyte
  rw [hc, Option.map_some, ← hbits, List.getElem?_append_left (by rw [flatMap_msbBits_length]; omega), hbyte] at hsym
  exact Option.some.inj hsym

/-! ## The round trip (R248) -/

theorem stopsDecoding_padding (n : Nat) : StopsDecoding (List.replicate n padChar) := by
  cases n with
  | zero => exact .inl rfl
  | succ n => exact .inr ⟨_, rfl⟩

/-- Settles O47: the bytes' bits are those of the input, since what is left over is fewer than eight bits. -/
theorem b32RoundTrip : Obligations.B32RoundTrip := by
  intro S
  obtain ⟨z, hz, henc⟩ := b32Symbols_bits S
  obtain ⟨D, left, hD, hleft, hdec⟩ :=
    b32Decode_symbols (fun c hc => isSymbol_of_inAlphabet (inAlphabet_of_mem_b32Symbols hc))
      (stopsDecoding_padding ((8 - (b32Symbols S).length % 8) % 8)) (syms := b32Symbols S)
  have hbits : D.flatMap msbBits ++ left = S.flatMap msbBits ++ List.replicate z false := hdec.trans henc
  have hlen := congrArg List.length hbits
  simp only [List.length_append, flatMap_msbBits_length, List.length_replicate] at hlen
  have hDS : D.length = S.length := by omega
  rw [b32Encode_eq, hD, flatMap_msbBits_inj hDS (List.append_inj_left hbits (by simp [hDS]))]

/-! ## The first invalid byte (R245) -/

theorem not_firstInvalid_of_stops {rest : List Byte} (h : StopsDecoding rest) (i : Nat) : ¬ FirstInvalid rest i := by
  rintro ⟨c, hc, hpad, -, hbefore⟩
  rcases h with rfl | ⟨r, rfl⟩
  · cases hc
  · cases i with
    | zero => exact hpad (Option.some.inj hc).symm
    | succ i =>
      obtain ⟨e, he, hepad, -⟩ := hbefore 0 (Nat.succ_pos i)
      exact hepad (Option.some.inj he).symm

theorem firstInvalid_cons_invalid {c : Byte} (hpad : c ≠ padChar) (hc : ¬ IsSymbol c) (cs : List Byte) (i : Nat) :
    FirstInvalid (c :: cs) i ↔ i = 0 := by
  refine ⟨fun ⟨_, _, _, _, hbefore⟩ => ?_, ?_⟩
  · by_contra hi
    obtain ⟨e, he, -, hsym⟩ := hbefore 0 (Nat.pos_of_ne_zero hi)
    exact hc (Option.some.inj he ▸ hsym)
  · rintro rfl
    exact ⟨c, rfl, hpad, hc, fun j hj => absurd hj (Nat.not_lt_zero j)⟩

theorem firstInvalid_cons_symbol {c : Byte} (hc : IsSymbol c) (cs : List Byte) (i : Nat) :
    FirstInvalid (c :: cs) i ↔ ∃ j, i = j + 1 ∧ FirstInvalid cs j := by
  constructor
  · rintro ⟨d, hd, hpad, hinvalid, hbefore⟩
    cases i with
    | zero => exact absurd (Option.some.inj hd ▸ hc) hinvalid
    | succ j => exact ⟨j, rfl, d, hd, hpad, hinvalid, fun k hk => hbefore (k + 1) (Nat.succ_lt_succ hk)⟩
  · rintro ⟨j, rfl, d, hd, hpad, hinvalid, hbefore⟩
    refine ⟨d, hd, hpad, hinvalid, fun k hk => ?_⟩
    cases k with
    | zero => exact ⟨c, rfl, ne_padChar_of_isSymbol hc, hc⟩
    | succ k => exact hbefore k (Nat.lt_of_succ_lt_succ hk)

theorem decodeFrom_eq_error_iff (S : List Byte) (i : Nat) {a : BitAcc} (ha : a.n < 8) (e : Nat) :
    decodeFrom i a S = .error e ↔ ∃ j, e = i + j ∧ FirstInvalid S j := by
  induction S generalizing i a with
  | nil => simp [decodeFrom, not_firstInvalid_of_stops (.inl rfl)]
  | cons c cs ih =>
    by_cases hpad : c = padChar
    · have hstop : StopsDecoding (c :: cs) := .inr ⟨cs, by rw [hpad]; rfl⟩
      simp [decodeFrom_of_stops hstop, not_firstInvalid_of_stops hstop]
    · by_cases hc : IsSymbol c
      · obtain ⟨out, a', ha', -, hdecode⟩ := decodeFrom_cons_symbol hc i ha cs
        have hmap : decodeFrom i a (c :: cs) = .error e ↔ decodeFrom (i + 1) a' cs = .error e := by
          rw [hdecode]
          cases decodeFrom (i + 1) a' cs <;> simp [Except.map]
        rw [hmap, ih (i + 1) ha']
        simp only [firstInvalid_cons_symbol hc]
        constructor
        · rintro ⟨j, he, hj⟩
          exact ⟨j + 1, by omega, j, rfl, hj⟩
        · rintro ⟨_, he, j, rfl, hj⟩
          exact ⟨j, by omega, hj⟩
      · simp [decodeFrom_cons_invalid hpad hc, firstInvalid_cons_invalid hpad hc, eq_comm]

theorem b32Decode_eq_error_iff (S : List Byte) (i : Nat) : b32Decode S = .error i ↔ FirstInvalid S i := by
  rw [b32Decode, decodeFrom_eq_error_iff S 0 (Nat.zero_lt_succ 7)]
  simp

/-- Settles O50: an error is an index of an invalid byte, so without one the answer is a success. -/
theorem b32DecodeFailsAtTheFirstInvalidByte : Obligations.B32DecodeFailsAtTheFirstInvalidByte := by
  intro S
  refine ⟨b32Decode_eq_error_iff S, ?_⟩
  simp only [← b32Decode_eq_error_iff]
  cases b32Decode S <;> simp

end Sys2Proof.Machine
end

section
/-! SUPPORT. Text validity: the check walks over the sequences of the table of R249 (spec/43_base32.md). -/

namespace Sys2Proof.Machine

open Sys2Proof.Statements

/-! ## One sequence -/

/-- The rows of the table, by lead byte. -/
theorem utf8Lead_eq_some_iff (b : Byte) (r : Utf8Lead) :
    utf8Lead b = some r ↔
      ((0xC2 ≤ b.toNat ∧ b.toNat ≤ 0xDF) ∧ ⟨2, 0x80, 0xBF⟩ = r) ∨
      (b.toNat = 0xE0 ∧ ⟨3, 0xA0, 0xBF⟩ = r) ∨
      (((0xE1 ≤ b.toNat ∧ b.toNat ≤ 0xEC) ∨ (0xEE ≤ b.toNat ∧ b.toNat ≤ 0xEF)) ∧ ⟨3, 0x80, 0xBF⟩ = r) ∨
      (b.toNat = 0xED ∧ ⟨3, 0x80, 0x9F⟩ = r) ∨
      (b.toNat = 0xF0 ∧ ⟨4, 0x90, 0xBF⟩ = r) ∨
      ((0xF1 ≤ b.toNat ∧ b.toNat ≤ 0xF3) ∧ ⟨4, 0x80, 0xBF⟩ = r) ∨
      (b.toNat = 0xF4 ∧ ⟨4, 0x80, 0x8F⟩ = r) := by
  have hle (k : Byte) : k ≤ b ↔ k.toNat ≤ b.toNat := BitVec.le_def
  have hge (k : Byte) : b ≤ k ↔ b.toNat ≤ k.toNat := BitVec.le_def
  have heq (k : Byte) : b = k ↔ b.toNat = k.toNat := BitVec.toNat_inj.symm
  simp only [utf8Lead, hle, hge, heq, BitVec.toNat_ofNat, BitVec.ofNat_eq_ofNat, Nat.reducePow, Nat.reduceMod]
  split_ifs <;> grind

/-- What follows a lead byte: a second byte in the row's range, then continuation bytes. -/
def Utf8Lead.Follows (r : Utf8Lead) (tail : List Byte) : Prop :=
  tail.length = r.len - 1 ∧ r.lo ≤ (tail.getD 0 0).toNat ∧ (tail.getD 0 0).toNat ≤ r.hi ∧
    ∀ c ∈ tail.drop 1, IsCont c.toNat

/-- A sequence is a byte below 0x80, or a lead byte and what its row lets follow: case by case of how many bytes do. -/
theorem isUtf8Seq_cons_iff (b : Byte) (tail : List Byte) :
    IsUtf8Seq (b :: tail) ↔
      (b.toNat ≤ 0x7F ∧ tail = []) ∨ ∃ r, utf8Lead b = some r ∧ r.Follows tail := by
  simp only [utf8Lead_eq_some_iff, Utf8Lead.Follows, or_and_right, exists_or, and_assoc, exists_and_left,
    exists_eq_left']
  rcases tail with _ | ⟨c, _ | ⟨d, _ | ⟨e, _ | ⟨f, tail⟩⟩⟩⟩
  · simp [IsUtf8Seq]
  · simp [IsUtf8Seq, IsCont]
  · simp [IsUtf8Seq, IsCont]
    omega
  · simp [IsUtf8Seq, IsCont]
    omega
  · simp [IsUtf8Seq]

theorem not_isUtf8Seq_nil : ¬ IsUtf8Seq [] := by simp [IsUtf8Seq]

theorem utf8Lead_len_pos {b : Byte} {r : Utf8Lead} (h : utf8Lead b = some r) : 0 < r.len := by
  rw [utf8Lead_eq_some_iff] at h
  rcases h with ⟨-, rfl⟩ | ⟨-, rfl⟩ | ⟨-, rfl⟩ | ⟨-, rfl⟩ | ⟨-, rfl⟩ | ⟨-, rfl⟩ | ⟨-, rfl⟩ <;> decide

theorem utf8Lead_of_le {b : Byte} (h : b.toNat ≤ 0x7F) : utf8Lead b = none := by
  refine Option.eq_none_iff_forall_ne_some.mpr fun r hr => ?_
  rw [utf8Lead_eq_some_iff] at hr
  omega

/-- The check of one sequence, on its lead byte and what follows it. -/
theorem utf8SeqLen_cons_eq_some_iff (b : Byte) (bs : List Byte) (m : Nat) :
    utf8SeqLen (b :: bs) = some m ↔
      (b.toNat ≤ 0x7F ∧ 1 = m) ∨ ∃ r, utf8Lead b = some r ∧ r.Follows (bs.take (r.len - 1)) ∧ r.len = m := by
  have hcont (l : List Byte) : (l.all fun c => 0x80 ≤ c ∧ c ≤ 0xBF) = true ↔ ∀ c ∈ l, IsCont c.toNat := by
    simp [IsCont, BitVec.le_def]
  rw [utf8SeqLen]
  by_cases hb : b ≤ 0x7F
  · have hb' : b.toNat ≤ 0x7F := hb
    rw [if_pos hb]
    simp [hb', utf8Lead_of_le hb']
  · have hb' : ¬ b.toNat ≤ 0x7F := hb
    rw [if_neg hb]
    cases utf8Lead b with
    | none => simp [hb']
    | some r =>
      simp only [hb', false_and, false_or, Option.some.injEq, exists_eq_left', Utf8Lead.Follows, hcont,
        Option.ite_none_right_eq_some]

/-- The check of one sequence finds exactly the sequence of the table that the bytes begin with. -/
theorem utf8SeqLen_eq_some_iff (S : List Byte) (m : Nat) :
    utf8SeqLen S = some m ↔ ∃ q rest, S = q ++ rest ∧ q.length = m ∧ IsUtf8Seq q := by
  cases S with
  | nil =>
    refine ⟨nofun, ?_⟩
    rintro ⟨q, rest, hS, -, hq⟩
    exact absurd ((List.append_eq_nil_iff.mp hS.symm).1 ▸ hq) not_isUtf8Seq_nil
  | cons b bs =>
    rw [utf8SeqLen_cons_eq_some_iff]
    constructor
    · rintro (⟨hb, rfl⟩ | ⟨r, hr, hfollows, rfl⟩)
      · exact ⟨[b], bs, rfl, rfl, (isUtf8Seq_cons_iff b []).mpr (.inl ⟨hb, rfl⟩)⟩
      · refine ⟨b :: bs.take (r.len - 1), bs.drop (r.len - 1), by simp, ?_,
          (isUtf8Seq_cons_iff b _).mpr (.inr ⟨r, hr, hfollows⟩)⟩
        rw [List.length_cons, hfollows.1, Nat.sub_add_cancel (utf8Lead_len_pos hr)]
    · rintro ⟨_ | ⟨b', tail⟩, rest, hS, rfl, hq⟩
      · exact absurd hq not_isUtf8Seq_nil
      · obtain ⟨rfl, (rfl : bs = tail ++ rest)⟩ := List.cons.inj hS
        refine ((isUtf8Seq_cons_iff b tail).mp hq).imp ?_ ?_
        · rintro ⟨hb, rfl⟩
          exact ⟨hb, rfl⟩
        · rintro ⟨r, hr, hfollows⟩
          have hlen := hfollows.1
          refine ⟨r, hr, by rwa [← hlen, List.take_left], ?_⟩
          rw [List.length_cons, hlen, Nat.sub_add_cancel (utf8Lead_len_pos hr)]

theorem utf8SeqLen_append {q : List Byte} (hq : IsUtf8Seq q) (rest : List Byte) :
    utf8SeqLen (q ++ rest) = some q.length := (utf8SeqLen_eq_some_iff _ _).mpr ⟨q, rest, rfl, rfl, hq⟩

theorem utf8SeqLen_eq_none_iff (S : List Byte) : utf8SeqLen S = none ↔ ∀ n, ¬ IsUtf8Seq (S.take n) := by
  constructor
  · intro h n hn
    have := utf8SeqLen_append hn (S.drop n)
    rw [List.take_append_drop, h] at this
    cases this
  · intro h
    refine Option.eq_none_iff_forall_ne_some.mpr fun m hm => ?_
    obtain ⟨q, rest, rfl, rfl, hq⟩ := (utf8SeqLen_eq_some_iff S m).mp hm
    exact h q.length (by rwa [List.take_left])

/-! ## The walk -/

theorem firstBadFrom_skip (k i : Nat) (S : List Byte) : firstBadFrom k i S = firstBadFrom 0 (i + k) (S.drop k) := by
  induction k generalizing i S with
  | zero => rfl
  | succ k ih =>
    cases S with
    | nil => rfl
    | cons b bs => rw [firstBadFrom, ih, List.drop_succ_cons, show i + 1 + k = i + (k + 1) by omega]

theorem firstBadFrom_append_seq {q : List Byte} (hq : IsUtf8Seq q) (i : Nat) (rest : List Byte) :
    firstBadFrom 0 i (q ++ rest) = firstBadFrom 0 (i + q.length) rest := by
  cases q with
  | nil => exact absurd hq not_isUtf8Seq_nil
  | cons b tail =>
    have hlen : utf8SeqLen (b :: (tail ++ rest)) = some (tail.length + 1) := utf8SeqLen_append hq rest
    rw [List.cons_append, firstBadFrom, hlen]
    dsimp only
    rw [firstBadFrom_skip, Nat.add_sub_cancel, List.drop_left, List.length_cons, Nat.add_assoc, Nat.add_comm 1]

theorem firstBadFrom_append_seqs {seqs : List (List Byte)} (h : ∀ q ∈ seqs, IsUtf8Seq q) (i : Nat) (rest : List Byte) :
    firstBadFrom 0 i (seqs.flatten ++ rest) = firstBadFrom 0 (i + seqs.flatten.length) rest := by
  induction seqs generalizing i with
  | nil => rfl
  | cons q seqs ih =>
    obtain ⟨hq, hseqs⟩ := List.forall_mem_cons.mp h
    rw [List.flatten_cons, List.append_assoc, firstBadFrom_append_seq hq, ih hseqs, List.length_append, Nat.add_assoc]

/-- Past the sequences the bytes begin with, the check ends: with none at the end, or where no sequence begins. -/
theorem utf8FirstBad_append {seqs : List (List Byte)} (h : ∀ q ∈ seqs, IsUtf8Seq q) {rest : List Byte}
    (hrest : utf8SeqLen rest = none) :
    utf8FirstBad (seqs.flatten ++ rest) = if rest = [] then none else some seqs.flatten.length := by
  rw [utf8FirstBad, firstBadFrom_append_seqs h, Nat.zero_add]
  cases rest with
  | nil => rfl
  | cons b bs => rw [firstBadFrom, hrest, if_neg (List.cons_ne_nil b bs)]

/-- Every byte sequence is sequences of the table and then bytes that begin with none. -/
theorem exists_utf8_seqs (S : List Byte) :
    ∃ (seqs : List (List Byte)) (rest : List Byte),
      (∀ q ∈ seqs, IsUtf8Seq q) ∧ S = seqs.flatten ++ rest ∧ utf8SeqLen rest = none := by
  induction hn : S.length using Nat.strong_induction_on generalizing S with
  | _ n ih =>
    cases hlen : utf8SeqLen S with
    | none => exact ⟨[], S, by simp, rfl, hlen⟩
    | some m =>
      obtain ⟨q, rest, rfl, rfl, hq⟩ := (utf8SeqLen_eq_some_iff S m).mp hlen
      have hpos : 0 < q.length := List.length_pos_of_ne_nil fun h => not_isUtf8Seq_nil (h ▸ hq)
      obtain ⟨seqs, rest', hseqs, rfl, hrest⟩ := ih rest.length (by rw [← hn, List.length_append]; omega) rest rfl
      exact ⟨q :: seqs, rest', List.forall_mem_cons.mpr ⟨hq, hseqs⟩, by simp, hrest⟩

/-- Settles O51: the input is sequences and a rest, and the check answers by whether the rest is empty. -/
theorem utf8FirstBadFindsTheFirstIllFormedSequence : Obligations.Utf8FirstBadFindsTheFirstIllFormedSequence := by
  intro S
  obtain ⟨seqs, rest, hseqs, hS, hrest⟩ := exists_utf8_seqs S
  have heval := utf8FirstBad_append hseqs hrest
  rw [← hS] at heval
  refine ⟨⟨fun h => ?_, ?_⟩, fun i => ⟨fun h => ?_, ?_⟩⟩
  · by_cases hnil : rest = []
    · exact ⟨seqs, hseqs, by rw [hS, hnil, List.append_nil]⟩
    · simp [heval, hnil] at h
  · rintro ⟨seqs', hseqs', rfl⟩
    simpa using utf8FirstBad_append hseqs' (rest := []) rfl
  · by_cases hnil : rest = []
    · simp [heval, hnil] at h
    · obtain rfl : seqs.flatten.length = i := by simpa [heval, hnil] using h
      have hpos := List.length_pos_of_ne_nil hnil
      exact ⟨by rw [hS, List.length_append]; omega, ⟨seqs, hseqs, by rw [hS, List.take_left]⟩,
        (utf8SeqLen_eq_none_iff _).mp (by rwa [hS, List.drop_left])⟩
  · rintro ⟨hi, ⟨seqs', hseqs', htake⟩, hbad⟩
    have hne : S.drop i ≠ [] := by simpa using hi
    have := utf8FirstBad_append hseqs' ((utf8SeqLen_eq_none_iff _).mpr hbad)
    rwa [← htake, List.take_append_drop, if_neg hne, List.length_take, Nat.min_eq_left hi.le] at this

end Sys2Proof.Machine
end

section
/-! SUPPORT. The three commands of spec/43_base32.md, and the round trip on the engine. -/

namespace Sys2Proof.Machine

open Sys2Proof.Statements

/-! ## What the commands share -/

/-- What a success leaves whose only result is its output. -/
def OutputOnly (s t : State) (bs : List Byte) : Prop :=
  Output s t bs ∧ Success t false ∧ InputsKept s t ∧ DigestKept s t ∧ TruncationKept s t ∧ CounterKept s t

section
variable {i : Instr} {s : State} (hchecks : checksOf i = [.inLong])
include hchecks

theorem exec_badInlen (hlong : s.params.inBufBytes < s.inLen) : ∃ t, exec i s = .next t ∧ ErrorEnd s t 0x05 0 :=
  exec_errorEnd_of_first_failing (pre := []) (c := .inLong) hchecks (by simp) ((RegCheck.fails_inLong s).mpr hlong)

theorem checksPass_of_inLen_le (hlen : s.inLen ≤ s.params.inBufBytes) : ChecksPass i s := by
  rw [ChecksPass, hchecks]
  exact List.forall_mem_singleton.mpr (RegCheck.fails_inLong_eq_false hlen)

/-- An error in the input's bytes ends the command as R293 says. -/
theorem exec_dataError (hlen : s.inLen ≤ s.params.inBufBytes) {e : ErrorName} {j : Nat}
    (hdata : dataError i (s.inBytes i) = some (e, j)) :
    ∃ t, exec i s = .next t ∧ ErrorEnd s t (e.errCode.setWidth 32) j := by
  obtain ⟨d, hd⟩ := s.afterOperands_draws_only i
  obtain ⟨hstatus, herridx, houtlen, hout, -, -, -, -⟩ := State.raiseError_errorEnd { s with draws := d } e j
  obtain ⟨hdigest, htrunc, hcounter⟩ := s.raiseError_resultsKept d e j
  refine ⟨State.raiseError { s with draws := d } e j, ?_, hstatus, herridx, houtlen, hout,
    s.raiseError_inputsKept d e j, hdigest, htrunc, hcounter⟩
  rw [exec_eq, runChecked_ok _ (checksPass_of_inLen_le hchecks hlen), commandBody_of_error hdata, hd]

theorem exec_outputOnly (hw : s.params.wf) (hlen : s.inLen ≤ s.params.inBufBytes)
    (hdata : dataError i (s.inBytes i) = none) {bs : List Byte}
    (hres : resultsOf i s (s.keyBytes i) (s.inBytes i) = { out := bs }) :
    ∃ t, exec i s = .next t ∧ OutputOnly s t bs := by
  have hpass := checksPass_of_inLen_le hchecks hlen
  have hfit := resultsOf_out_fits (K := s.keyBytes i) hw hpass (State.inBytes_length_le hw hpass)
  obtain ⟨d, hexec⟩ := exec_success hpass hdata
  rw [hres] at hfit hexec
  exact ⟨_, hexec, Results.write_output hw hfit d, Results.write_success _ _, Results.write_inputsKept hw hfit d,
    Results.write_digestKept rfl s d, Results.write_truncationKept rfl s d, Results.write_counterKept rfl s d⟩

end

/-! ## B32_ENCODE (R250) -/

theorem exec_b32Encode {s : State} (hw : s.params.wf) (hlen : s.inLen ≤ s.params.inBufBytes) :
    ∃ t, exec .b32Encode s = .next t ∧ OutputOnly s t (b32Encode s.readIn.1) :=
  exec_outputOnly rfl hw hlen rfl rfl

theorem b32Encode_readIn_length (s : State) : (b32Encode s.readIn.1).length = 8 * ((s.inLen + 4) / 5) := by
  rw [b32Encode_length, State.readIn, State.readSpan_length]

/-- Settles O31: its one check is the input length, and its result the encoding. -/
theorem b32EncodeResult : Obligations.B32EncodeResult := by
  refine ⟨decode_encode .b32Encode, fun s hw hlen => ?_, fun s => exec_badInlen rfl⟩
  obtain ⟨t, hexec, hout, hkept⟩ := exec_b32Encode hw hlen
  exact ⟨t, hexec, hout, hout.outlen.trans (b32Encode_readIn_length s), hkept⟩

/-! ## B32_DECODE and B32_DECODE_TEXT (R251, R252) -/

theorem dataError_invalidChar {i : Instr} (hi : i = .b32Decode ∨ i = .b32DecodeText) {M : List Byte} {j : Nat}
    (h : FirstInvalid M j) : dataError i M = some (.invalidChar, j) := by
  have herr := (b32Decode_eq_error_iff M j).mpr h
  rcases hi with rfl | rfl <;> simp [dataError, herr]

theorem exec_b32Decode {s : State} {D : List Byte} (hw : s.params.wf) (hlen : s.inLen ≤ s.params.inBufBytes)
    (hD : b32Decode s.readIn.1 = .ok D) : ∃ t, exec .b32Decode s = .next t ∧ OutputOnly s t D :=
  exec_outputOnly rfl hw hlen (by simp [dataError, State.inBytes_b32Decode, hD])
    (by rw [resultsOf, State.inBytes_b32Decode, decodedBytes_of_ok hD])

/-- Settles O32: its one check is the input length, its data error the one of the decoder, its result the bytes. -/
theorem b32DecodeResult : Obligations.B32DecodeResult := by
  refine ⟨decode_encode .b32Decode, fun s hw hlen D hD => ?_, fun s hlen j hj => ?_, fun s => exec_badInlen rfl⟩
  · exact exec_b32Decode hw hlen hD
  · exact exec_dataError rfl hlen (dataError_invalidChar (.inl rfl) hj)

/-- Settles O33: as B32_DECODE, and the data error of the text check on the bytes of a success. -/
theorem b32DecodeTextResult : Obligations.B32DecodeTextResult := by
  refine ⟨decode_encode .b32DecodeText, fun s hw hlen D hD htext => ?_, fun s hlen D j hD htext => ?_,
    fun s hlen j hj => ?_, fun s => exec_badInlen rfl⟩
  · exact exec_outputOnly rfl hw hlen (by simp [dataError, State.inBytes_b32DecodeText, hD, htext])
      (by rw [resultsOf, State.inBytes_b32DecodeText, decodedBytes_of_ok hD])
  · exact exec_dataError (i := .b32DecodeText) (e := .decodeFailure) rfl hlen
      (by simp [dataError, State.inBytes_b32DecodeText, hD, htext])
  · exact exec_dataError rfl hlen (dataError_invalidChar (.inr rfl) hj)

/-! ## The round trip on the engine (R248) -/

theorem State.readSpan_eq_of_read? {s : State} {a : Nat} {bs : List Byte}
    (h : ∀ j < bs.length, s.mem.read? (a + j) = bs[j]?) : (s.readSpan a bs.length).1 = bs := by
  refine List.ext_getElem? fun j => ?_
  by_cases hj : j < bs.length
  · rw [List.getElem?_eq_getElem hj]
    exact State.readSpan_getElem? hj ((h j hj).trans (List.getElem?_eq_getElem hj))
  · rw [List.getElem?_eq_none (by simpa using hj), List.getElem?_eq_none (by simpa using hj)]

/-- The state once the host has copied OUT[0..OUTLEN) into IN and set INLEN to OUTLEN. -/
def State.copyOutToIn (t : State) : State :=
  { t with mem := t.mem.writeSpan 0x1000 (t.readSpan 0x2000 t.outlen.toNat).1, inlen := t.outlen }

theorem State.copyOutToIn_readIn {s t : State} {bs : List Byte} (h : Output s t bs) : t.copyOutToIn.readIn.1 = bs := by
  have hout : (t.readSpan 0x2000 bs.length).1 = bs := State.readSpan_eq_of_read? h.bytes
  show (t.copyOutToIn.readSpan 0x1000 t.outlen.toNat).1 = bs
  rw [h.outlen]
  refine State.readSpan_eq_of_read? fun j hj => ?_
  show (t.mem.writeSpan 0x1000 (t.readSpan 0x2000 t.outlen.toNat).1).read? (0x1000 + j) = _
  rw [h.outlen, hout, Memory.read?_writeSpan, if_pos (by omega), Nat.add_sub_cancel_left]

/-- Settles O48: the copied encoding fits IN and decodes to the input. -/
theorem b32CommandRoundTrip : Obligations.B32CommandRoundTrip := by
  intro s hw hlen hwritten
  obtain ⟨t, hexec, hout, -, hinputs, -⟩ := exec_b32Encode (s := s) hw (by omega)
  have hparams : t.copyOutToIn.params = s.params := hinputs.params
  have hread := State.copyOutToIn_readIn hout
  have hinLen : t.copyOutToIn.inLen = 8 * ((s.inLen + 4) / 5) := hout.outlen.trans (b32Encode_readIn_length s)
  obtain ⟨v, hexec', hout', hsuccess, -⟩ := exec_b32Decode (s := t.copyOutToIn) (D := s.readIn.1) (hparams ▸ hw)
    (by rw [hparams, hinLen]; omega) (by rw [hread, b32RoundTrip])
  have hlength : s.readIn.1.length = s.inLen := s.readSpan_length _ _
  refine ⟨t, v, hexec, hexec', hsuccess, hout'.outlen.trans hlength, fun j hj => ?_⟩
  obtain ⟨b, hb⟩ := Option.isSome_iff_exists.mp (hwritten j hj)
  rw [hout'.bytes j (hlength ▸ hj), hb]
  exact State.readSpan_getElem? hj hb

end Sys2Proof.Machine
end

section
/-! SUPPORT. The register checks as the statements word them (spec/60_exceptions.md R290 to R292): each command's list
holds its column entries of R291 and rises by error code, so its first failing check is the one of lowest code. Then
the data errors a command can raise, and the steps that idling and power decide (R304). -/

namespace Sys2Proof.Machine

open Sys2Proof.Statements

/-! ## The error epilogue -/

/-- Settles O19: the epilogue is the same for every error but for its code. -/
theorem errorEpilogueReportsAndChangesNothingElse : Obligations.ErrorEpilogueReportsAndChangesNothingElse := by
  intro s idx
  have hend (e : ErrorName) := s.raiseError_errorEnd e idx
  exact ⟨hend .illegalCmd, hend .badDigits, hend .badTstep, hend .keyTooLong, hend .badInlen, hend .invalidChar,
    hend .decodeFailure⟩

/-! ## The register checks of a command -/

theorem mem_checksOf_iff (i : Instr) (c : RegCheck) : c ∈ checksOf i ↔ mayRaise i c := by
  cases i <;> simp [checksOf, mayRaise]

theorem RegCheck.fails_iff_checkFails (c : RegCheck) (s : State) : c.fails s = true ↔ checkFails s c := by
  cases c with
  | digits => exact RegCheck.fails_digits s
  | tstep => exact RegCheck.fails_tstep s
  | keyLong => exact RegCheck.fails_keyLong s
  | inLong => exact RegCheck.fails_inLong s
  | inNot20 => exact RegCheck.fails_inNot20 s

theorem RegCheck.fails_eq_false_iff (c : RegCheck) (s : State) : c.fails s = false ↔ ¬ checkFails s c := by
  rw [← c.fails_iff_checkFails, Bool.not_eq_true]

theorem RegCheck.errCode_eq_checkCode (c : RegCheck) : c.error.errCode.setWidth 32 = checkCode c := by
  cases c <;> rfl

/-- A command makes its checks in the order of their error codes (R292), no two of one code. -/
theorem checksOf_codes_rise (i : Instr) :
    (checksOf i).Pairwise fun c c' => (checkCode c).toNat < (checkCode c').toNat := by
  cases i <;> decide

theorem checksPass_iff (i : Instr) (s : State) : ChecksPass i s ↔ ∀ c, mayRaise i c → ¬ checkFails s c := by
  simp only [ChecksPass, mem_checksOf_iff, RegCheck.fails_eq_false_iff]

/-- Settles O20: the checks made before the failing one have lower codes, so none of them fails. -/
theorem firstFailingCheckIsReported : Obligations.FirstFailingCheckIsReported := by
  intro i s c hmay hfails hlower
  obtain ⟨pre, post, hchecks⟩ := List.append_of_mem ((mem_checksOf_iff i c).mpr hmay)
  have hrise := checksOf_codes_rise i
  rw [hchecks] at hrise
  obtain ⟨-, -, hcross⟩ := List.pairwise_append.mp hrise
  have hpre : ∀ c' ∈ pre, c'.fails s = false := fun c' hc' => by
    have hmay' : mayRaise i c' := (mem_checksOf_iff i c').mp (hchecks ▸ List.mem_append_left _ hc')
    have hlt : (checkCode c').toNat < (checkCode c).toNat := hcross c' hc' c List.mem_cons_self
    exact (c'.fails_eq_false_iff s).mpr (hlower c' hmay' hlt)
  rw [← c.errCode_eq_checkCode]
  exact exec_errorEnd_of_first_failing hchecks hpre ((c.fails_iff_checkFails s).mpr hfails)

/-! ## The data errors of a command -/

/-- The last two columns of R291: which command can raise which error of its input's bytes. -/
theorem dataError_cases {i : Instr} {M : List Byte} {e : ErrorName} {j : Nat} (h : dataError i M = some (e, j)) :
    (e = .invalidChar ∧ (i = .b32Decode ∨ i = .b32DecodeText)) ∨ (e = .decodeFailure ∧ i = .b32DecodeText) := by
  unfold dataError at h
  split at h
  · cases h
    exact .inl ⟨rfl, .inl rfl⟩
  · cases h
    exact .inl ⟨rfl, .inr rfl⟩
  · rw [Option.map_eq_some_iff] at h
    obtain ⟨_, -, hname⟩ := h
    cases hname
    exact .inr ⟨rfl, rfl⟩
  · cases h

/-- Settles O21: once the checks have passed, the error of the input's bytes is the only one left. -/
theorem noFailingCheckNoRegisterError : Obligations.NoFailingCheckNoRegisterError := by
  intro i s hchecks
  have hpass := (checksPass_iff i s).mpr hchecks
  rcases hdata : dataError i (s.inBytes i) with _ | ⟨e, j⟩
  · obtain ⟨d, hexec⟩ := exec_success hpass hdata
    exact ⟨_, hexec, by simp, fun _ => Results.write_errCode _ _⟩
  · have hexec : exec i s = .next ((s.afterOperands i).raiseError e j) := by
      rw [exec_eq, runChecked_ok _ hpass, commandBody_of_error hdata]
    refine ⟨_, hexec, fun _ => ?_, by simp⟩
    rw [State.raiseError_errCode]
    exact (dataError_cases hdata).imp (fun ⟨he, hi⟩ => ⟨he ▸ rfl, hi⟩) (fun ⟨he, hi⟩ => ⟨he ▸ rfl, hi⟩)

/-! ## Idling and power (R304) -/

theorem step_of_port_nil {s : State} (h : s.port = []) : step s = idle s := by simp [step, h]

theorem step_of_port_cons {s : State} {e : PortEvent} {rest : List PortEvent} (h : s.port = e :: rest) :
    step s = serve e { s with port := rest } := by simp [step, h]

theorem idle_of_powered {s : State} (h : s.phase ≠ .unpowered) : idle s = .next s := by
  cases hphase : s.phase with
  | unpowered => exact absurd hphase h
  | running | inReset => simp only [idle, hphase]

theorem idle_of_unpowered {s : State} (h : s.phase = .unpowered) : idle s = .fault .noPower := by simp [idle, h]

theorem serve_powerLoss {s : State} (h : s.phase ≠ .unpowered) :
    serve .powerLoss s = .next { s with phase := .unpowered } := by
  cases hphase : s.phase with
  | unpowered => exact absurd hphase h
  | running | inReset => simp only [serve, hphase]

theorem serve_of_unpowered {s : State} {e : PortEvent} (h : s.phase = .unpowered) (he : e ≠ .resetAssert) :
    serve e s = .fault .noPower := by
  cases e with
  | resetAssert => exact absurd rfl he
  | access | resetRelease | cmdAbandoned | powerLoss => simp only [serve, h]

/-- Settles O8: what each of the three steps serves is decided by the phase. -/
theorem idleHoldsAndNoStepWithoutPower : Obligations.IdleHoldsAndNoStepWithoutPower := by
  refine ⟨fun s hport hpowered => ?_, fun s rest hpowered hport => ?_, fun s hphase hnoReset => ?_⟩
  · exact (step_of_port_nil hport).trans (idle_of_powered hpowered)
  · exact (step_of_port_cons hport).trans (serve_powerLoss hpowered)
  · cases hport : s.port with
    | nil => exact (step_of_port_nil hport).trans (idle_of_unpowered hphase)
    | cons e rest =>
      have he : e ≠ .resetAssert := fun h => hnoReset rest (h ▸ hport)
      exact (step_of_port_cons hport).trans (serve_of_unpowered hphase he)

end Sys2Proof.Machine
end

section
/-! SUPPORT. The reset input: what its events leave of the registers and the buffers, and accesses while it is asserted
(spec/70_reset_and_hazards.md R320, R321). -/

namespace Sys2Proof.Machine

open Sys2Proof.Statements

/-! ## The state that reset leaves -/

/-- What a register reads depends on what it holds alone, and R45 holds of `State.reset`. -/
theorem registersReset_of_rawReg {t : State} (h : ∀ r : HostReg, t.rawReg r = State.reset.rawReg r) :
    RegistersReset t := by
  obtain ⟨hreset, -⟩ := resetLeavesTheResetValues
  intro r
  rw [State.readReg, h r]
  exact hreset r

theorem State.resetRegs_registersReset (s : State) (ph : Phase) : RegistersReset (s.resetRegs ph) :=
  registersReset_of_rawReg (s.resetRegs_rawReg ph)

theorem State.resetRegs_buffersUnspecified (s : State) (ph : Phase) : BuffersUnspecified (s.resetRegs ph) := by
  intro a
  rw [State.resetRegs_mem, Memory.read?_nil]

theorem registersReset_answerFree {s : State} (h : RegistersReset s) : RegistersReset s.answerFree := by
  intro r
  rw [State.readReg, State.answerFree_rawReg]
  exact h r

theorem buffersUnspecified_answerFree {s : State} (h : BuffersUnspecified s) : BuffersUnspecified s.answerFree := by
  intro a
  rw [State.answerFree_mem]
  exact h a

/-! ## Serving the events of reset -/

theorem serve_resetAssert (s : State) : serve .resetAssert s = .next (s.resetRegs .inReset) := by simp only [serve]

theorem serve_cmdAbandoned {s : State} (h : s.phase ≠ .unpowered) (v : Word) :
    serve (.cmdAbandoned v) s = .next (s.resetRegs .inReset).answerFree := by
  cases hphase : s.phase with
  | unpowered => exact absurd hphase h
  | running | inReset => simp only [serve, hphase]

theorem serve_resetRelease {s : State} (h : s.phase = .inReset) :
    serve .resetRelease s = .next (s.resetRegs .running) := by simp only [serve, h]

theorem serve_access_of_inReset {s : State} (h : s.phase = .inReset) (a : Access) :
    serve (.access a) s = serveInReset a s := by simp only [serve, h]

/-- Inside the window an access of any width is answered, and no more. -/
theorem serveInReset_of_window (s : State) {a : Access} {off : Nat} (hoff : off < 0x4000)
    (ha : ∃ n, a = .read (s.params.engineBase + off) n ∨ ∃ v, a = .write (s.params.engineBase + off) n v) :
    serveInReset a s = .next s.answerFree := by
  have hwindow := s.params.windowOffset_base_add hoff
  obtain ⟨n, rfl | ⟨v, rfl⟩⟩ := ha
  · simp only [serveInReset, hwindow]
  · simp only [serveInReset, hwindow]

/-- Settles O7: asserting, abandoning and releasing each pass through `State.resetRegs`, and an access in reset only
through `State.answerFree`. -/
theorem resetInputLeavesTheResetState : Obligations.ResetInputLeavesTheResetState := by
  refine ⟨fun s rest hport => ?asserted, fun s v rest hpowered hport => ?abandoned,
    fun s rest hphase hport => ?released, fun s a rest off hphase hport ha hoff => ?access⟩
  case asserted =>
    exact ⟨_, (step_of_port_cons hport).trans (serve_resetAssert _), State.resetRegs_registersReset _ _,
      State.resetRegs_buffersUnspecified _ _, rfl, rfl⟩
  case abandoned =>
    have hserve := serve_cmdAbandoned (s := { s with port := rest }) hpowered v
    exact ⟨_, (step_of_port_cons hport).trans hserve,
      registersReset_answerFree (State.resetRegs_registersReset _ _),
      buffersUnspecified_answerFree (State.resetRegs_buffersUnspecified _ _), rfl, rfl⟩
  case released =>
    have hserve := serve_resetRelease (s := { s with port := rest }) hphase
    exact ⟨_, (step_of_port_cons hport).trans hserve, State.resetRegs_registersReset _ _,
      State.resetRegs_buffersUnspecified _ _, rfl, rfl⟩
  case access =>
    have hserve := serve_access_of_inReset (s := { s with port := rest }) hphase a
    rw [serveInReset_of_window { s with port := rest } hoff ha] at hserve
    exact ⟨_, (step_of_port_cons hport).trans hserve, State.answerFree_rawReg _, rfl, hphase, rfl⟩

end Sys2Proof.Machine
end

section
/-! SUPPORT. Accesses outside the window of the engine (spec/20_memory.md R66; log entry 11). -/

namespace Sys2Proof.Machine

open Sys2Proof.Statements

theorem Params.windowOffset_eq_none {p : Params} {addr : Nat}
    (h : addr < p.engineBase ∨ p.engineBase + 0x4000 ≤ addr) : p.windowOffset addr = none := by
  cases hoff : p.windowOffset addr with
  | none => rfl
  | some off =>
    have haddr := Params.windowOffset_eq_some hoff
    have hlt := Params.windowOffset_lt hoff
    omega

theorem serveAccess_read_outside {s : State} {addr : Nat} (h : s.params.windowOffset addr = none) (n : Nat) :
    serveAccess (.read addr n) s = .refused .outsideWindow := by
  simp only [serveAccess, h]

theorem serveAccess_write_outside {s : State} {addr : Nat} (h : s.params.windowOffset addr = none) (n : Nat) (v : Word) :
    serveAccess (.write addr n v) s = .refused .outsideWindow := by
  simp only [serveAccess, h]

/-- Settles O12: an address outside the window has no offset, and the port refuses an access without one before it
looks at the width. -/
theorem outsideTheWindowIsRefused : Obligations.OutsideTheWindowIsRefused := by
  intro s addr n rest houtside
  have hnone : s.params.windowOffset addr = none := Params.windowOffset_eq_none houtside
  refine ⟨fun hread => ?read, fun v hwrite => ?write⟩
  case read => exact (step_access hread).trans (serveAccess_read_outside (s := { s with port := rest }) hnone n)
  case write => exact (step_access hwrite).trans (serveAccess_write_outside (s := { s with port := rest }) hnone n v)

end Sys2Proof.Machine
end
